-- ==== Sys2Proof/Word.lean ====
section
/-! DEFINITION. The word types of the machine: register lanes, bytes, code offsets and register numbers. -/

namespace Sys2Proof

/-- A general register's 64 bits, and every 64-bit operand value (10_state.md R20, 30_encoding.md R107). -/
abbrev Word := BitVec 64

/-- One byte of code or of data memory (20_memory.md R60). -/
abbrev Byte := BitVec 8

/-- A byte offset into the code, the type of the program counter (10_state.md R24). -/
abbrev CodeAddr := BitVec 32

/-- A general register's number, 0 to 12 (10_state.md R20). -/
abbrev Reg := Fin 13

end Sys2Proof
end

