-- ==== Sys2Proof/Config.lean ====
section
/-! DEFINITION. What the spec fixes as constants (00_scope.md R7) and the parameters it leaves open. -/

namespace Sys2Proof

/-! ### Settled values (00_scope.md R7) -/

/-- `MEMORY_SIZE`, 2^32 bytes (00_scope.md R7). -/
def memorySize : Nat := 0x100000000

/-- `SNAPSHOT_LEN`, 104 bytes (00_scope.md R7, 10_state.md R23). -/
def snapshotLen : Nat := 104

/-! ### Values the source does not settle, with the defaults of the spec -/

/-- The configuration of a machine: what 00_scope.md R7 does not call settled and 10_state.md R36 does not make an
argument of the step, each field with the default R7 states. `Params` holds the rest of R7. -/
structure Config where
  /-- `PAGE_SIZE` (00_scope.md R7, 20_memory.md R61; the spec's decision D2). -/
  pageSize : Nat := 4096
  /-- `MAX_SKIP`, the most operand bytes of one instruction (00_scope.md R7, 30_encoding.md R104). -/
  maxSkip : Nat := 24
  /-- `MAX_CODE_LEN`, 2^32 - 26 bytes (00_scope.md R7, 30_encoding.md R101). -/
  maxCodeLen : Nat := 0xFFFFFFE6
  /-- `GAS_BITS`, the width of the signed gas counter (00_scope.md R7, 10_state.md R27). -/
  gasBits : Nat := 64
  /-- `Z_P`, the SPI page size (00_scope.md R7, 70_reset_and_hazards.md R394). -/
  spiPage : Nat := 4096
  /-- `Z_Z`, the SPI zone size (00_scope.md R7, 70_reset_and_hazards.md R394). -/
  spiZone : Nat := 65536
  /-- `Z_I`, the SPI limit on argument and data size (00_scope.md R7, 70_reset_and_hazards.md R394). -/
  spiMaxData : Nat := 0x1000000
deriving DecidableEq, Repr

/-- The configuration of this machine: every field at the default of 00_scope.md R7. -/
abbrev config : Config := {}

/-- `MAX_NUMBER_OF_PAGES`, `MEMORY_SIZE / PAGE_SIZE` (00_scope.md R7, 20_memory.md R61). -/
def maxPages : Nat := memorySize / config.pageSize

/-- The gas counter's type, `GAS_BITS` wide and read as signed (10_state.md R27). -/
abbrev Gas := BitVec config.gasBits

/-- The parameters of the step that 00_scope.md R7 leaves open or marks as parameters (U6 to U8). They are
plain data carried in `State.params`, so a statement about every state holds for every value of them; no
operation of the machine writes them. DESIGN CHOICE, safe: log 1. -/
structure Params where
  /-- `GAS_COST` by opcode: entry `op` is the cost of opcode `op`; past the end of the list the cost is the
  default 1. -/
  gasCosts : List Nat := []
  /-- `JUMP_ALIGN`, a positive integer. -/
  jumpAlign : Nat := 1
  /-- `EXIT_ADDR`, the dynamic-jump address that means HALT. -/
  exitAddr : BitVec 32 := 0xFFFF0000#32
deriving DecidableEq, Repr

/-- `GAS_COST(op)` (00_scope.md R7, the default of 92_eei_decisions.md D9). -/
def Params.gasCost (p : Params) (op : Nat) : Nat := p.gasCosts.getD op 1

end Sys2Proof
end

