-- ==== Sys2Proof/Syntax.lean ====
section
/-! DEFINITION. The instructions (30_encoding.md R122), their typed argument records (R105 to R121) and the
program image the decoder works on (R100). -/

namespace Sys2Proof

/-- One constructor for each row of the opcode map (30_encoding.md R122), in the map's order. A register
argument is the register selected after the clamp of R106; an immediate is the 64-bit sign-extended value of
R107; an offset is the signed displacement of R113, R116 and R119. -/
inductive Instr where
  /-- `TRAP`, opcode 0, R109, 48_system.md R330. -/
  | trap
  /-- `FALLTHROUGH`, opcode 1, R109, 48_system.md R331. -/
  | fallthrough
  /-- `ECALLI`, opcode 10, R110, 48_system.md R332. -/
  | ecalli (immX : Word)
  /-- `LOAD_IMM_64`, opcode 20, R111, 44_move.md R257. -/
  | loadImm64 (rA : Reg) (immX : Word)
  /-- `STORE_IMM_U8`, opcode 30, R112, 46_store.md R289. -/
  | storeImmU8 (immX immY : Word)
  /-- `STORE_IMM_U16`, opcode 31, R112, 46_store.md R290. -/
  | storeImmU16 (immX immY : Word)
  /-- `STORE_IMM_U32`, opcode 32, R112, 46_store.md R291. -/
  | storeImmU32 (immX immY : Word)
  /-- `STORE_IMM_U64`, opcode 33, R112, 46_store.md R292. -/
  | storeImmU64 (immX immY : Word)
  /-- `JUMP`, opcode 40, R113, 47_control_flow.md R302. -/
  | jump (offX : Int)
  /-- `JUMP_IND`, opcode 50, R114, 47_control_flow.md R320. -/
  | jumpInd (rA : Reg) (immX : Word)
  /-- `LOAD_IMM`, opcode 51, R114, 44_move.md R256. -/
  | loadImm (rA : Reg) (immX : Word)
  /-- `LOAD_U8`, opcode 52, R114, 45_load.md R261. -/
  | loadU8 (rA : Reg) (immX : Word)
  /-- `LOAD_I8`, opcode 53, R114, 45_load.md R262. -/
  | loadI8 (rA : Reg) (immX : Word)
  /-- `LOAD_U16`, opcode 54, R114, 45_load.md R263. -/
  | loadU16 (rA : Reg) (immX : Word)
  /-- `LOAD_I16`, opcode 55, R114, 45_load.md R264. -/
  | loadI16 (rA : Reg) (immX : Word)
  /-- `LOAD_U32`, opcode 56, R114, 45_load.md R265. -/
  | loadU32 (rA : Reg) (immX : Word)
  /-- `LOAD_I32`, opcode 57, R114, 45_load.md R266. -/
  | loadI32 (rA : Reg) (immX : Word)
  /-- `LOAD_U64`, opcode 58, R114, 45_load.md R267. -/
  | loadU64 (rA : Reg) (immX : Word)
  /-- `STORE_U8`, opcode 59, R114, 46_store.md R281. -/
  | storeU8 (rA : Reg) (immX : Word)
  /-- `STORE_U16`, opcode 60, R114, 46_store.md R282. -/
  | storeU16 (rA : Reg) (immX : Word)
  /-- `STORE_U32`, opcode 61, R114, 46_store.md R283. -/
  | storeU32 (rA : Reg) (immX : Word)
  /-- `STORE_U64`, opcode 62, R114, 46_store.md R284. -/
  | storeU64 (rA : Reg) (immX : Word)
  /-- `STORE_IMM_IND_U8`, opcode 70, R115, 46_store.md R293. -/
  | storeImmIndU8 (rA : Reg) (immX immY : Word)
  /-- `STORE_IMM_IND_U16`, opcode 71, R115, 46_store.md R294. -/
  | storeImmIndU16 (rA : Reg) (immX immY : Word)
  /-- `STORE_IMM_IND_U32`, opcode 72, R115, 46_store.md R295. -/
  | storeImmIndU32 (rA : Reg) (immX immY : Word)
  /-- `STORE_IMM_IND_U64`, opcode 73, R115, 46_store.md R296. -/
  | storeImmIndU64 (rA : Reg) (immX immY : Word)
  /-- `LOAD_IMM_JUMP`, opcode 80, R116, 47_control_flow.md R319. -/
  | loadImmJump (rA : Reg) (immX : Word) (offY : Int)
  /-- `BRANCH_EQ_IMM`, opcode 81, R116, 47_control_flow.md R309. -/
  | branchEqImm (rA : Reg) (immX : Word) (offY : Int)
  /-- `BRANCH_NE_IMM`, opcode 82, R116, 47_control_flow.md R310. -/
  | branchNeImm (rA : Reg) (immX : Word) (offY : Int)
  /-- `BRANCH_LT_U_IMM`, opcode 83, R116, 47_control_flow.md R311. -/
  | branchLtUImm (rA : Reg) (immX : Word) (offY : Int)
  /-- `BRANCH_LE_U_IMM`, opcode 84, R116, 47_control_flow.md R312. -/
  | branchLeUImm (rA : Reg) (immX : Word) (offY : Int)
  /-- `BRANCH_GE_U_IMM`, opcode 85, R116, 47_control_flow.md R313. -/
  | branchGeUImm (rA : Reg) (immX : Word) (offY : Int)
  /-- `BRANCH_GT_U_IMM`, opcode 86, R116, 47_control_flow.md R314. -/
  | branchGtUImm (rA : Reg) (immX : Word) (offY : Int)
  /-- `BRANCH_LT_S_IMM`, opcode 87, R116, 47_control_flow.md R315. -/
  | branchLtSImm (rA : Reg) (immX : Word) (offY : Int)
  /-- `BRANCH_LE_S_IMM`, opcode 88, R116, 47_control_flow.md R316. -/
  | branchLeSImm (rA : Reg) (immX : Word) (offY : Int)
  /-- `BRANCH_GE_S_IMM`, opcode 89, R116, 47_control_flow.md R317. -/
  | branchGeSImm (rA : Reg) (immX : Word) (offY : Int)
  /-- `BRANCH_GT_S_IMM`, opcode 90, R116, 47_control_flow.md R318. -/
  | branchGtSImm (rA : Reg) (immX : Word) (offY : Int)
  /-- `MOVE_REG`, opcode 100, R117, 44_move.md R251. -/
  | moveReg (rD rA : Reg)
  /-- `COUNT_SET_BITS_64`, opcode 102, R117, 42_bit.md R228. -/
  | countSetBits64 (rD rA : Reg)
  /-- `COUNT_SET_BITS_32`, opcode 103, R117, 42_bit.md R229. -/
  | countSetBits32 (rD rA : Reg)
  /-- `LEADING_ZERO_BITS_64`, opcode 104, R117, 42_bit.md R230. -/
  | leadingZeroBits64 (rD rA : Reg)
  /-- `LEADING_ZERO_BITS_32`, opcode 105, R117, 42_bit.md R231. -/
  | leadingZeroBits32 (rD rA : Reg)
  /-- `TRAILING_ZERO_BITS_64`, opcode 106, R117, 42_bit.md R232. -/
  | trailingZeroBits64 (rD rA : Reg)
  /-- `TRAILING_ZERO_BITS_32`, opcode 107, R117, 42_bit.md R233. -/
  | trailingZeroBits32 (rD rA : Reg)
  /-- `SIGN_EXTEND_8`, opcode 108, R117, 42_bit.md R234. -/
  | signExtend8 (rD rA : Reg)
  /-- `SIGN_EXTEND_16`, opcode 109, R117, 42_bit.md R235. -/
  | signExtend16 (rD rA : Reg)
  /-- `ZERO_EXTEND_16`, opcode 110, R117, 42_bit.md R236. -/
  | zeroExtend16 (rD rA : Reg)
  /-- `REVERSE_BYTES`, opcode 111, R117, 42_bit.md R237. -/
  | reverseBytes (rD rA : Reg)
  /-- `STORE_IND_U8`, opcode 120, R118, 46_store.md R285. -/
  | storeIndU8 (rA rB : Reg) (immX : Word)
  /-- `STORE_IND_U16`, opcode 121, R118, 46_store.md R286. -/
  | storeIndU16 (rA rB : Reg) (immX : Word)
  /-- `STORE_IND_U32`, opcode 122, R118, 46_store.md R287. -/
  | storeIndU32 (rA rB : Reg) (immX : Word)
  /-- `STORE_IND_U64`, opcode 123, R118, 46_store.md R288. -/
  | storeIndU64 (rA rB : Reg) (immX : Word)
  /-- `LOAD_IND_U8`, opcode 124, R118, 45_load.md R268. -/
  | loadIndU8 (rA rB : Reg) (immX : Word)
  /-- `LOAD_IND_I8`, opcode 125, R118, 45_load.md R269. -/
  | loadIndI8 (rA rB : Reg) (immX : Word)
  /-- `LOAD_IND_U16`, opcode 126, R118, 45_load.md R270. -/
  | loadIndU16 (rA rB : Reg) (immX : Word)
  /-- `LOAD_IND_I16`, opcode 127, R118, 45_load.md R271. -/
  | loadIndI16 (rA rB : Reg) (immX : Word)
  /-- `LOAD_IND_U32`, opcode 128, R118, 45_load.md R272. -/
  | loadIndU32 (rA rB : Reg) (immX : Word)
  /-- `LOAD_IND_I32`, opcode 129, R118, 45_load.md R273. -/
  | loadIndI32 (rA rB : Reg) (immX : Word)
  /-- `LOAD_IND_U64`, opcode 130, R118, 45_load.md R274. -/
  | loadIndU64 (rA rB : Reg) (immX : Word)
  /-- `ADD_IMM_32`, opcode 131, R118, 40_math.md R155. -/
  | addImm32 (rA rB : Reg) (immX : Word)
  /-- `AND_IMM`, opcode 132, R118, 42_bit.md R214. -/
  | andImm (rA rB : Reg) (immX : Word)
  /-- `XOR_IMM`, opcode 133, R118, 42_bit.md R215. -/
  | xorImm (rA rB : Reg) (immX : Word)
  /-- `OR_IMM`, opcode 134, R118, 42_bit.md R216. -/
  | orImm (rA rB : Reg) (immX : Word)
  /-- `MUL_IMM_32`, opcode 135, R118, 40_math.md R163. -/
  | mulImm32 (rA rB : Reg) (immX : Word)
  /-- `SET_LT_U_IMM`, opcode 136, R118, 43_boolean.md R243. -/
  | setLtUImm (rA rB : Reg) (immX : Word)
  /-- `SET_LT_S_IMM`, opcode 137, R118, 43_boolean.md R244. -/
  | setLtSImm (rA rB : Reg) (immX : Word)
  /-- `SHLO_L_IMM_32`, opcode 138, R118, 41_shift.md R197. -/
  | shloLImm32 (rA rB : Reg) (immX : Word)
  /-- `SHLO_R_IMM_32`, opcode 139, R118, 41_shift.md R199. -/
  | shloRImm32 (rA rB : Reg) (immX : Word)
  /-- `SHAR_R_IMM_32`, opcode 140, R118, 41_shift.md R201. -/
  | sharRImm32 (rA rB : Reg) (immX : Word)
  /-- `NEG_ADD_IMM_32`, opcode 141, R118, 40_math.md R159. -/
  | negAddImm32 (rA rB : Reg) (immX : Word)
  /-- `SET_GT_U_IMM`, opcode 142, R118, 43_boolean.md R245. -/
  | setGtUImm (rA rB : Reg) (immX : Word)
  /-- `SET_GT_S_IMM`, opcode 143, R118, 43_boolean.md R246. -/
  | setGtSImm (rA rB : Reg) (immX : Word)
  /-- `SHLO_L_IMM_ALT_32`, opcode 144, R118, 41_shift.md R203. -/
  | shloLImmAlt32 (rA rB : Reg) (immX : Word)
  /-- `SHLO_R_IMM_ALT_32`, opcode 145, R118, 41_shift.md R205. -/
  | shloRImmAlt32 (rA rB : Reg) (immX : Word)
  /-- `SHAR_R_IMM_ALT_32`, opcode 146, R118, 41_shift.md R207. -/
  | sharRImmAlt32 (rA rB : Reg) (immX : Word)
  /-- `CMOV_IZ_IMM`, opcode 147, R118, 44_move.md R254. -/
  | cmovIzImm (rA rB : Reg) (immX : Word)
  /-- `CMOV_NZ_IMM`, opcode 148, R118, 44_move.md R255. -/
  | cmovNzImm (rA rB : Reg) (immX : Word)
  /-- `ADD_IMM_64`, opcode 149, R118, 40_math.md R156. -/
  | addImm64 (rA rB : Reg) (immX : Word)
  /-- `MUL_IMM_64`, opcode 150, R118, 40_math.md R164. -/
  | mulImm64 (rA rB : Reg) (immX : Word)
  /-- `SHLO_L_IMM_64`, opcode 151, R118, 41_shift.md R198. -/
  | shloLImm64 (rA rB : Reg) (immX : Word)
  /-- `SHLO_R_IMM_64`, opcode 152, R118, 41_shift.md R200. -/
  | shloRImm64 (rA rB : Reg) (immX : Word)
  /-- `SHAR_R_IMM_64`, opcode 153, R118, 41_shift.md R202. -/
  | sharRImm64 (rA rB : Reg) (immX : Word)
  /-- `NEG_ADD_IMM_64`, opcode 154, R118, 40_math.md R160. -/
  | negAddImm64 (rA rB : Reg) (immX : Word)
  /-- `SHLO_L_IMM_ALT_64`, opcode 155, R118, 41_shift.md R204. -/
  | shloLImmAlt64 (rA rB : Reg) (immX : Word)
  /-- `SHLO_R_IMM_ALT_64`, opcode 156, R118, 41_shift.md R206. -/
  | shloRImmAlt64 (rA rB : Reg) (immX : Word)
  /-- `SHAR_R_IMM_ALT_64`, opcode 157, R118, 41_shift.md R208. -/
  | sharRImmAlt64 (rA rB : Reg) (immX : Word)
  /-- `ROT_R_64_IMM`, opcode 158, R118, 42_bit.md R224. -/
  | rotR64Imm (rA rB : Reg) (immX : Word)
  /-- `ROT_R_64_IMM_ALT`, opcode 159, R118, 42_bit.md R225. -/
  | rotR64ImmAlt (rA rB : Reg) (immX : Word)
  /-- `ROT_R_32_IMM`, opcode 160, R118, 42_bit.md R226. -/
  | rotR32Imm (rA rB : Reg) (immX : Word)
  /-- `ROT_R_32_IMM_ALT`, opcode 161, R118, 42_bit.md R227. -/
  | rotR32ImmAlt (rA rB : Reg) (immX : Word)
  /-- `BRANCH_EQ`, opcode 170, R119, 47_control_flow.md R303. -/
  | branchEq (rA rB : Reg) (offX : Int)
  /-- `BRANCH_NE`, opcode 171, R119, 47_control_flow.md R304. -/
  | branchNe (rA rB : Reg) (offX : Int)
  /-- `BRANCH_LT_U`, opcode 172, R119, 47_control_flow.md R305. -/
  | branchLtU (rA rB : Reg) (offX : Int)
  /-- `BRANCH_LT_S`, opcode 173, R119, 47_control_flow.md R306. -/
  | branchLtS (rA rB : Reg) (offX : Int)
  /-- `BRANCH_GE_U`, opcode 174, R119, 47_control_flow.md R307. -/
  | branchGeU (rA rB : Reg) (offX : Int)
  /-- `BRANCH_GE_S`, opcode 175, R119, 47_control_flow.md R308. -/
  | branchGeS (rA rB : Reg) (offX : Int)
  /-- `LOAD_IMM_JUMP_IND`, opcode 180, R120, 47_control_flow.md R321. -/
  | loadImmJumpInd (rA rB : Reg) (immX immY : Word)
  /-- `ADD_32`, opcode 190, R121, 40_math.md R153. -/
  | add32 (rD rA rB : Reg)
  /-- `SUB_32`, opcode 191, R121, 40_math.md R157. -/
  | sub32 (rD rA rB : Reg)
  /-- `MUL_32`, opcode 192, R121, 40_math.md R161. -/
  | mul32 (rD rA rB : Reg)
  /-- `DIV_U_32`, opcode 193, R121, 40_math.md R168. -/
  | divU32 (rD rA rB : Reg)
  /-- `DIV_S_32`, opcode 194, R121, 40_math.md R170. -/
  | divS32 (rD rA rB : Reg)
  /-- `REM_U_32`, opcode 195, R121, 40_math.md R172. -/
  | remU32 (rD rA rB : Reg)
  /-- `REM_S_32`, opcode 196, R121, 40_math.md R174. -/
  | remS32 (rD rA rB : Reg)
  /-- `SHLO_L_32`, opcode 197, R121, 41_shift.md R191. -/
  | shloL32 (rD rA rB : Reg)
  /-- `SHLO_R_32`, opcode 198, R121, 41_shift.md R193. -/
  | shloR32 (rD rA rB : Reg)
  /-- `SHAR_R_32`, opcode 199, R121, 41_shift.md R195. -/
  | sharR32 (rD rA rB : Reg)
  /-- `ADD_64`, opcode 200, R121, 40_math.md R154. -/
  | add64 (rD rA rB : Reg)
  /-- `SUB_64`, opcode 201, R121, 40_math.md R158. -/
  | sub64 (rD rA rB : Reg)
  /-- `MUL_64`, opcode 202, R121, 40_math.md R162. -/
  | mul64 (rD rA rB : Reg)
  /-- `DIV_U_64`, opcode 203, R121, 40_math.md R169. -/
  | divU64 (rD rA rB : Reg)
  /-- `DIV_S_64`, opcode 204, R121, 40_math.md R171. -/
  | divS64 (rD rA rB : Reg)
  /-- `REM_U_64`, opcode 205, R121, 40_math.md R173. -/
  | remU64 (rD rA rB : Reg)
  /-- `REM_S_64`, opcode 206, R121, 40_math.md R175. -/
  | remS64 (rD rA rB : Reg)
  /-- `SHLO_L_64`, opcode 207, R121, 41_shift.md R192. -/
  | shloL64 (rD rA rB : Reg)
  /-- `SHLO_R_64`, opcode 208, R121, 41_shift.md R194. -/
  | shloR64 (rD rA rB : Reg)
  /-- `SHAR_R_64`, opcode 209, R121, 41_shift.md R196. -/
  | sharR64 (rD rA rB : Reg)
  /-- `AND`, opcode 210, R121, 42_bit.md R211. -/
  | and (rD rA rB : Reg)
  /-- `XOR`, opcode 211, R121, 42_bit.md R212. -/
  | xor (rD rA rB : Reg)
  /-- `OR`, opcode 212, R121, 42_bit.md R213. -/
  | or (rD rA rB : Reg)
  /-- `MUL_UPPER_S_S`, opcode 213, R121, 40_math.md R165. -/
  | mulUpperSS (rD rA rB : Reg)
  /-- `MUL_UPPER_U_U`, opcode 214, R121, 40_math.md R166. -/
  | mulUpperUU (rD rA rB : Reg)
  /-- `MUL_UPPER_S_U`, opcode 215, R121, 40_math.md R167. -/
  | mulUpperSU (rD rA rB : Reg)
  /-- `SET_LT_U`, opcode 216, R121, 43_boolean.md R241. -/
  | setLtU (rD rA rB : Reg)
  /-- `SET_LT_S`, opcode 217, R121, 43_boolean.md R242. -/
  | setLtS (rD rA rB : Reg)
  /-- `CMOV_IZ`, opcode 218, R121, 44_move.md R252. -/
  | cmovIz (rD rA rB : Reg)
  /-- `CMOV_NZ`, opcode 219, R121, 44_move.md R253. -/
  | cmovNz (rD rA rB : Reg)
  /-- `ROT_L_64`, opcode 220, R121, 42_bit.md R220. -/
  | rotL64 (rD rA rB : Reg)
  /-- `ROT_L_32`, opcode 221, R121, 42_bit.md R221. -/
  | rotL32 (rD rA rB : Reg)
  /-- `ROT_R_64`, opcode 222, R121, 42_bit.md R222. -/
  | rotR64 (rD rA rB : Reg)
  /-- `ROT_R_32`, opcode 223, R121, 42_bit.md R223. -/
  | rotR32 (rD rA rB : Reg)
  /-- `AND_INV`, opcode 224, R121, 42_bit.md R217. -/
  | andInv (rD rA rB : Reg)
  /-- `OR_INV`, opcode 225, R121, 42_bit.md R218. -/
  | orInv (rD rA rB : Reg)
  /-- `XNOR`, opcode 226, R121, 42_bit.md R219. -/
  | xnor (rD rA rB : Reg)
  /-- `MAX`, opcode 227, R121, 40_math.md R176. -/
  | max (rD rA rB : Reg)
  /-- `MAX_U`, opcode 228, R121, 40_math.md R177. -/
  | maxU (rD rA rB : Reg)
  /-- `MIN`, opcode 229, R121, 40_math.md R178. -/
  | min (rD rA rB : Reg)
  /-- `MIN_U`, opcode 230, R121, 40_math.md R179. -/
  | minU (rD rA rB : Reg)
deriving DecidableEq, Repr

/-- The typed argument record of an instruction, one constructor for each of the 13 shapes (30_encoding.md
R108 to R121). -/
inductive Args where
  /-- R109. -/
  | noArguments
  /-- R110. -/
  | oneImmediate (immX : Word)
  /-- R111. -/
  | oneRegisterOneExtendedWidthImmediate (rA : Reg) (immX : Word)
  /-- R112. -/
  | twoImmediates (immX immY : Word)
  /-- R113. -/
  | oneOffset (offX : Int)
  /-- R114. -/
  | oneRegisterOneImmediate (rA : Reg) (immX : Word)
  /-- R115. -/
  | oneRegisterTwoImmediates (rA : Reg) (immX immY : Word)
  /-- R116. -/
  | oneRegisterOneImmediateOneOffset (rA : Reg) (immX : Word) (offY : Int)
  /-- R117. -/
  | twoRegisters (rD rA : Reg)
  /-- R118. -/
  | twoRegistersOneImmediate (rA rB : Reg) (immX : Word)
  /-- R119. -/
  | twoRegistersOneOffset (rA rB : Reg) (offX : Int)
  /-- R120. -/
  | twoRegistersTwoImmediates (rA rB : Reg) (immX immY : Word)
  /-- R121. -/
  | threeRegisters (rD rA rB : Reg)
deriving DecidableEq, Repr

/-- The argument record of an instruction: which shape its opcode has and the operands in it (30_encoding.md
R105, R122). -/
def Instr.args : Instr → Args
  | .trap => .noArguments
  | .fallthrough => .noArguments
  | .ecalli immX => .oneImmediate immX
  | .loadImm64 rA immX => .oneRegisterOneExtendedWidthImmediate rA immX
  | .storeImmU8 immX immY => .twoImmediates immX immY
  | .storeImmU16 immX immY => .twoImmediates immX immY
  | .storeImmU32 immX immY => .twoImmediates immX immY
  | .storeImmU64 immX immY => .twoImmediates immX immY
  | .jump offX => .oneOffset offX
  | .jumpInd rA immX => .oneRegisterOneImmediate rA immX
  | .loadImm rA immX => .oneRegisterOneImmediate rA immX
  | .loadU8 rA immX => .oneRegisterOneImmediate rA immX
  | .loadI8 rA immX => .oneRegisterOneImmediate rA immX
  | .loadU16 rA immX => .oneRegisterOneImmediate rA immX
  | .loadI16 rA immX => .oneRegisterOneImmediate rA immX
  | .loadU32 rA immX => .oneRegisterOneImmediate rA immX
  | .loadI32 rA immX => .oneRegisterOneImmediate rA immX
  | .loadU64 rA immX => .oneRegisterOneImmediate rA immX
  | .storeU8 rA immX => .oneRegisterOneImmediate rA immX
  | .storeU16 rA immX => .oneRegisterOneImmediate rA immX
  | .storeU32 rA immX => .oneRegisterOneImmediate rA immX
  | .storeU64 rA immX => .oneRegisterOneImmediate rA immX
  | .storeImmIndU8 rA immX immY => .oneRegisterTwoImmediates rA immX immY
  | .storeImmIndU16 rA immX immY => .oneRegisterTwoImmediates rA immX immY
  | .storeImmIndU32 rA immX immY => .oneRegisterTwoImmediates rA immX immY
  | .storeImmIndU64 rA immX immY => .oneRegisterTwoImmediates rA immX immY
  | .loadImmJump rA immX offY => .oneRegisterOneImmediateOneOffset rA immX offY
  | .branchEqImm rA immX offY => .oneRegisterOneImmediateOneOffset rA immX offY
  | .branchNeImm rA immX offY => .oneRegisterOneImmediateOneOffset rA immX offY
  | .branchLtUImm rA immX offY => .oneRegisterOneImmediateOneOffset rA immX offY
  | .branchLeUImm rA immX offY => .oneRegisterOneImmediateOneOffset rA immX offY
  | .branchGeUImm rA immX offY => .oneRegisterOneImmediateOneOffset rA immX offY
  | .branchGtUImm rA immX offY => .oneRegisterOneImmediateOneOffset rA immX offY
  | .branchLtSImm rA immX offY => .oneRegisterOneImmediateOneOffset rA immX offY
  | .branchLeSImm rA immX offY => .oneRegisterOneImmediateOneOffset rA immX offY
  | .branchGeSImm rA immX offY => .oneRegisterOneImmediateOneOffset rA immX offY
  | .branchGtSImm rA immX offY => .oneRegisterOneImmediateOneOffset rA immX offY
  | .moveReg rD rA => .twoRegisters rD rA
  | .countSetBits64 rD rA => .twoRegisters rD rA
  | .countSetBits32 rD rA => .twoRegisters rD rA
  | .leadingZeroBits64 rD rA => .twoRegisters rD rA
  | .leadingZeroBits32 rD rA => .twoRegisters rD rA
  | .trailingZeroBits64 rD rA => .twoRegisters rD rA
  | .trailingZeroBits32 rD rA => .twoRegisters rD rA
  | .signExtend8 rD rA => .twoRegisters rD rA
  | .signExtend16 rD rA => .twoRegisters rD rA
  | .zeroExtend16 rD rA => .twoRegisters rD rA
  | .reverseBytes rD rA => .twoRegisters rD rA
  | .storeIndU8 rA rB immX => .twoRegistersOneImmediate rA rB immX
  | .storeIndU16 rA rB immX => .twoRegistersOneImmediate rA rB immX
  | .storeIndU32 rA rB immX => .twoRegistersOneImmediate rA rB immX
  | .storeIndU64 rA rB immX => .twoRegistersOneImmediate rA rB immX
  | .loadIndU8 rA rB immX => .twoRegistersOneImmediate rA rB immX
  | .loadIndI8 rA rB immX => .twoRegistersOneImmediate rA rB immX
  | .loadIndU16 rA rB immX => .twoRegistersOneImmediate rA rB immX
  | .loadIndI16 rA rB immX => .twoRegistersOneImmediate rA rB immX
  | .loadIndU32 rA rB immX => .twoRegistersOneImmediate rA rB immX
  | .loadIndI32 rA rB immX => .twoRegistersOneImmediate rA rB immX
  | .loadIndU64 rA rB immX => .twoRegistersOneImmediate rA rB immX
  | .addImm32 rA rB immX => .twoRegistersOneImmediate rA rB immX
  | .andImm rA rB immX => .twoRegistersOneImmediate rA rB immX
  | .xorImm rA rB immX => .twoRegistersOneImmediate rA rB immX
  | .orImm rA rB immX => .twoRegistersOneImmediate rA rB immX
  | .mulImm32 rA rB immX => .twoRegistersOneImmediate rA rB immX
  | .setLtUImm rA rB immX => .twoRegistersOneImmediate rA rB immX
  | .setLtSImm rA rB immX => .twoRegistersOneImmediate rA rB immX
  | .shloLImm32 rA rB immX => .twoRegistersOneImmediate rA rB immX
  | .shloRImm32 rA rB immX => .twoRegistersOneImmediate rA rB immX
  | .sharRImm32 rA rB immX => .twoRegistersOneImmediate rA rB immX
  | .negAddImm32 rA rB immX => .twoRegistersOneImmediate rA rB immX
  | .setGtUImm rA rB immX => .twoRegistersOneImmediate rA rB immX
  | .setGtSImm rA rB immX => .twoRegistersOneImmediate rA rB immX
  | .shloLImmAlt32 rA rB immX => .twoRegistersOneImmediate rA rB immX
  | .shloRImmAlt32 rA rB immX => .twoRegistersOneImmediate rA rB immX
  | .sharRImmAlt32 rA rB immX => .twoRegistersOneImmediate rA rB immX
  | .cmovIzImm rA rB immX => .twoRegistersOneImmediate rA rB immX
  | .cmovNzImm rA rB immX => .twoRegistersOneImmediate rA rB immX
  | .addImm64 rA rB immX => .twoRegistersOneImmediate rA rB immX
  | .mulImm64 rA rB immX => .twoRegistersOneImmediate rA rB immX
  | .shloLImm64 rA rB immX => .twoRegistersOneImmediate rA rB immX
  | .shloRImm64 rA rB immX => .twoRegistersOneImmediate rA rB immX
  | .sharRImm64 rA rB immX => .twoRegistersOneImmediate rA rB immX
  | .negAddImm64 rA rB immX => .twoRegistersOneImmediate rA rB immX
  | .shloLImmAlt64 rA rB immX => .twoRegistersOneImmediate rA rB immX
  | .shloRImmAlt64 rA rB immX => .twoRegistersOneImmediate rA rB immX
  | .sharRImmAlt64 rA rB immX => .twoRegistersOneImmediate rA rB immX
  | .rotR64Imm rA rB immX => .twoRegistersOneImmediate rA rB immX
  | .rotR64ImmAlt rA rB immX => .twoRegistersOneImmediate rA rB immX
  | .rotR32Imm rA rB immX => .twoRegistersOneImmediate rA rB immX
  | .rotR32ImmAlt rA rB immX => .twoRegistersOneImmediate rA rB immX
  | .branchEq rA rB offX => .twoRegistersOneOffset rA rB offX
  | .branchNe rA rB offX => .twoRegistersOneOffset rA rB offX
  | .branchLtU rA rB offX => .twoRegistersOneOffset rA rB offX
  | .branchLtS rA rB offX => .twoRegistersOneOffset rA rB offX
  | .branchGeU rA rB offX => .twoRegistersOneOffset rA rB offX
  | .branchGeS rA rB offX => .twoRegistersOneOffset rA rB offX
  | .loadImmJumpInd rA rB immX immY => .twoRegistersTwoImmediates rA rB immX immY
  | .add32 rD rA rB => .threeRegisters rD rA rB
  | .sub32 rD rA rB => .threeRegisters rD rA rB
  | .mul32 rD rA rB => .threeRegisters rD rA rB
  | .divU32 rD rA rB => .threeRegisters rD rA rB
  | .divS32 rD rA rB => .threeRegisters rD rA rB
  | .remU32 rD rA rB => .threeRegisters rD rA rB
  | .remS32 rD rA rB => .threeRegisters rD rA rB
  | .shloL32 rD rA rB => .threeRegisters rD rA rB
  | .shloR32 rD rA rB => .threeRegisters rD rA rB
  | .sharR32 rD rA rB => .threeRegisters rD rA rB
  | .add64 rD rA rB => .threeRegisters rD rA rB
  | .sub64 rD rA rB => .threeRegisters rD rA rB
  | .mul64 rD rA rB => .threeRegisters rD rA rB
  | .divU64 rD rA rB => .threeRegisters rD rA rB
  | .divS64 rD rA rB => .threeRegisters rD rA rB
  | .remU64 rD rA rB => .threeRegisters rD rA rB
  | .remS64 rD rA rB => .threeRegisters rD rA rB
  | .shloL64 rD rA rB => .threeRegisters rD rA rB
  | .shloR64 rD rA rB => .threeRegisters rD rA rB
  | .sharR64 rD rA rB => .threeRegisters rD rA rB
  | .and rD rA rB => .threeRegisters rD rA rB
  | .xor rD rA rB => .threeRegisters rD rA rB
  | .or rD rA rB => .threeRegisters rD rA rB
  | .mulUpperSS rD rA rB => .threeRegisters rD rA rB
  | .mulUpperUU rD rA rB => .threeRegisters rD rA rB
  | .mulUpperSU rD rA rB => .threeRegisters rD rA rB
  | .setLtU rD rA rB => .threeRegisters rD rA rB
  | .setLtS rD rA rB => .threeRegisters rD rA rB
  | .cmovIz rD rA rB => .threeRegisters rD rA rB
  | .cmovNz rD rA rB => .threeRegisters rD rA rB
  | .rotL64 rD rA rB => .threeRegisters rD rA rB
  | .rotL32 rD rA rB => .threeRegisters rD rA rB
  | .rotR64 rD rA rB => .threeRegisters rD rA rB
  | .rotR32 rD rA rB => .threeRegisters rD rA rB
  | .andInv rD rA rB => .threeRegisters rD rA rB
  | .orInv rD rA rB => .threeRegisters rD rA rB
  | .xnor rD rA rB => .threeRegisters rD rA rB
  | .max rD rA rB => .threeRegisters rD rA rB
  | .maxU rD rA rB => .threeRegisters rD rA rB
  | .min rD rA rB => .threeRegisters rD rA rB
  | .minU rD rA rB => .threeRegisters rD rA rB

/-- A program image `(c, k, J)`: code bytes, instruction-boundary mask, jump table (30_encoding.md R100,
R132). -/
structure Image where
  /-- `c`, the code bytes. -/
  code : List Byte := []
  /-- `k`, one bit for each code byte: is it the first byte of an instruction. -/
  mask : List Bool := []
  /-- `J`, the legal dynamic-jump destinations, as code offsets. -/
  jumpTable : List Nat := []
deriving DecidableEq, Repr

end Sys2Proof
end

