-- ==== Sys2Proof/WellFormed.lean ====
section
/-! DEFINITION. Which instructions the encoding can express, and which images load. -/

namespace Sys2Proof

/-- `sext_(8n)(v)`: the low `n` bytes of `v`, sign-extended to 64 bits (00_scope.md R9, 30_encoding.md R107).
For `n = 0` it is 0. -/
def signExtendBytes (n : Nat) (v : Word) : Word := (v.setWidth (8 * n)).signExtend 64

/-- An immediate of at most 4 bytes can stand for `v` (30_encoding.md R107). -/
def immFits (v : Word) : Bool := signExtendBytes 4 v = v

/-- A displacement of at most 4 bytes can stand for `z` (30_encoding.md R107, R113). -/
def offFits (z : Int) : Bool := -0x80000000 ≤ z && z < 0x80000000

/-- Every immediate and offset of the record can be encoded. The 8-byte immediate of R111 always can. -/
def Args.wf : Args → Bool
  | .noArguments => true
  | .oneImmediate x => immFits x
  | .oneRegisterOneExtendedWidthImmediate _ _ => true
  | .twoImmediates x y => immFits x && immFits y
  | .oneOffset z => offFits z
  | .oneRegisterOneImmediate _ x => immFits x
  | .oneRegisterTwoImmediates _ x y => immFits x && immFits y
  | .oneRegisterOneImmediateOneOffset _ x z => immFits x && offFits z
  | .twoRegisters _ _ => true
  | .twoRegistersOneImmediate _ _ x => immFits x
  | .twoRegistersOneOffset _ _ z => offFits z
  | .twoRegistersTwoImmediates _ _ x y => immFits x && immFits y
  | .threeRegisters _ _ _ => true

/-- A well-formed instruction: one that some byte string encodes. -/
def Instr.wf (i : Instr) : Bool := i.args.wf

/-- The checks made when an image is loaded (30_encoding.md R101): the mask has the code's length, the code
is not too long, every jump-table entry is below 2^32. -/
def Image.wf (p : Image) : Bool :=
  p.mask.length == p.code.length && decide (p.code.length ≤ config.maxCodeLen) &&
    p.jumpTable.all fun o => decide (o < 0x100000000)

end Sys2Proof
end

