-- ==== Sys2Proof/Decode.lean ====
section
/-! DEFINITION. Byte order, immediates, instruction length, the decoder, the encoder and the basic-block map
(30_encoding.md). Decoding never fails but where no opcode byte stands or it is unassigned. -/

namespace Sys2Proof

/-! ### Bytes and immediates -/

/-- The unsigned value of bytes, the first the least significant (20_memory.md R72, R73). -/
def leValue : List Byte → Nat
  | [] => 0
  | b :: bs => b.toNat + 256 * leValue bs

/-- The low `n` bytes of a value, the least significant first (10_state.md R22, 20_memory.md R74). -/
def leBytes (n : Nat) (v : Word) : List Byte := (List.range n).map fun j => (v >>> (8 * j)).setWidth 8

/-- `zeta` (30_encoding.md R103): the byte `j` of a byte string, 0 past its end. -/
def byteAt (bs : List Byte) (j : Nat) : Byte := bs.getD j 0

/-- The `n` bytes from offset `j` on, read through `zeta`. -/
def bytesAt (bs : List Byte) (j n : Nat) : List Byte := (List.range n).map fun m => byteAt bs (j + m)

/-- `imm(j, n)` (30_encoding.md R107): the little-endian immediate of `n` bytes at offset `j`, sign-extended
from `8n` bits; 0 for `n = 0`, the bytes themselves for `n = 8`. -/
def immAt (bs : List Byte) (j n : Nat) : Word := signExtendBytes n (BitVec.ofNat 64 (leValue (bytesAt bs j n)))

/-- A displacement, `s_64(imm(j, n))` (30_encoding.md R107, R113). -/
def offAt (bs : List Byte) (j n : Nat) : Int := (immAt bs j n).toInt

/-- `reg(n) = min(12, n)` (30_encoding.md R106). -/
def regOf (n : Nat) : Reg := ⟨min 12 n, by omega⟩

/-- The register of a byte's low nibble, `reg(lo(b))` (30_encoding.md R106, R108). -/
def loReg (b : Byte) : Reg := regOf (b.toNat % 16)

/-- The register of a byte's high nibble, `reg(hi(b))` (30_encoding.md R106, R108). -/
def hiReg (b : Byte) : Reg := regOf (b.toNat / 16)

/-! ### Instruction length -/

/-- How many unmarked bytes stand from offset `p` on, at most `fuel`; past its end the mask is extended with 1
bits (30_encoding.md R104). -/
def unmarkedFrom (k : List Bool) (p : Nat) : Nat → Nat
  | 0 => 0
  | fuel + 1 => if k.getD p true then 0 else 1 + unmarkedFrom k (p + 1) fuel

/-- `skip(i)` (30_encoding.md R104): the number of operand bytes of the instruction at `i`, at most 24. -/
def skip (k : List Bool) (i : Nat) : Nat := unmarkedFrom k (i + 1) config.maxSkip

/-! ### The opcode map -/

/-- A row's shape (30_encoding.md R108 to R121) with the instruction it makes of the operands. -/
inductive Row where
  | noArguments (i : Instr)
  | oneImmediate (f : Word → Instr)
  | oneRegisterOneExtendedWidthImmediate (f : Reg → Word → Instr)
  | twoImmediates (f : Word → Word → Instr)
  | oneOffset (f : Int → Instr)
  | oneRegisterOneImmediate (f : Reg → Word → Instr)
  | oneRegisterTwoImmediates (f : Reg → Word → Word → Instr)
  | oneRegisterOneImmediateOneOffset (f : Reg → Word → Int → Instr)
  | twoRegisters (f : Reg → Reg → Instr)
  | twoRegistersOneImmediate (f : Reg → Reg → Word → Instr)
  | twoRegistersOneOffset (f : Reg → Reg → Int → Instr)
  | twoRegistersTwoImmediates (f : Reg → Reg → Word → Word → Instr)
  | threeRegisters (f : Reg → Reg → Reg → Instr)

/-- The opcode map's rows from opcode 0 to 71 (30_encoding.md R122). -/
def opcodeRows0 : List (Nat × Row) :=
  [(0, Row.noArguments Instr.trap),
   (1, Row.noArguments Instr.fallthrough),
   (10, Row.oneImmediate Instr.ecalli),
   (20, Row.oneRegisterOneExtendedWidthImmediate Instr.loadImm64),
   (30, Row.twoImmediates Instr.storeImmU8),
   (31, Row.twoImmediates Instr.storeImmU16),
   (32, Row.twoImmediates Instr.storeImmU32),
   (33, Row.twoImmediates Instr.storeImmU64),
   (40, Row.oneOffset Instr.jump),
   (50, Row.oneRegisterOneImmediate Instr.jumpInd),
   (51, Row.oneRegisterOneImmediate Instr.loadImm),
   (52, Row.oneRegisterOneImmediate Instr.loadU8),
   (53, Row.oneRegisterOneImmediate Instr.loadI8),
   (54, Row.oneRegisterOneImmediate Instr.loadU16),
   (55, Row.oneRegisterOneImmediate Instr.loadI16),
   (56, Row.oneRegisterOneImmediate Instr.loadU32),
   (57, Row.oneRegisterOneImmediate Instr.loadI32),
   (58, Row.oneRegisterOneImmediate Instr.loadU64),
   (59, Row.oneRegisterOneImmediate Instr.storeU8),
   (60, Row.oneRegisterOneImmediate Instr.storeU16),
   (61, Row.oneRegisterOneImmediate Instr.storeU32),
   (62, Row.oneRegisterOneImmediate Instr.storeU64),
   (70, Row.oneRegisterTwoImmediates Instr.storeImmIndU8),
   (71, Row.oneRegisterTwoImmediates Instr.storeImmIndU16)]

/-- The opcode map's rows from opcode 72 to 111 (30_encoding.md R122). -/
def opcodeRows1 : List (Nat × Row) :=
  [(72, Row.oneRegisterTwoImmediates Instr.storeImmIndU32),
   (73, Row.oneRegisterTwoImmediates Instr.storeImmIndU64),
   (80, Row.oneRegisterOneImmediateOneOffset Instr.loadImmJump),
   (81, Row.oneRegisterOneImmediateOneOffset Instr.branchEqImm),
   (82, Row.oneRegisterOneImmediateOneOffset Instr.branchNeImm),
   (83, Row.oneRegisterOneImmediateOneOffset Instr.branchLtUImm),
   (84, Row.oneRegisterOneImmediateOneOffset Instr.branchLeUImm),
   (85, Row.oneRegisterOneImmediateOneOffset Instr.branchGeUImm),
   (86, Row.oneRegisterOneImmediateOneOffset Instr.branchGtUImm),
   (87, Row.oneRegisterOneImmediateOneOffset Instr.branchLtSImm),
   (88, Row.oneRegisterOneImmediateOneOffset Instr.branchLeSImm),
   (89, Row.oneRegisterOneImmediateOneOffset Instr.branchGeSImm),
   (90, Row.oneRegisterOneImmediateOneOffset Instr.branchGtSImm),
   (100, Row.twoRegisters Instr.moveReg),
   (102, Row.twoRegisters Instr.countSetBits64),
   (103, Row.twoRegisters Instr.countSetBits32),
   (104, Row.twoRegisters Instr.leadingZeroBits64),
   (105, Row.twoRegisters Instr.leadingZeroBits32),
   (106, Row.twoRegisters Instr.trailingZeroBits64),
   (107, Row.twoRegisters Instr.trailingZeroBits32),
   (108, Row.twoRegisters Instr.signExtend8),
   (109, Row.twoRegisters Instr.signExtend16),
   (110, Row.twoRegisters Instr.zeroExtend16),
   (111, Row.twoRegisters Instr.reverseBytes)]

/-- The opcode map's rows from opcode 120 to 143 (30_encoding.md R122). -/
def opcodeRows2 : List (Nat × Row) :=
  [(120, Row.twoRegistersOneImmediate Instr.storeIndU8),
   (121, Row.twoRegistersOneImmediate Instr.storeIndU16),
   (122, Row.twoRegistersOneImmediate Instr.storeIndU32),
   (123, Row.twoRegistersOneImmediate Instr.storeIndU64),
   (124, Row.twoRegistersOneImmediate Instr.loadIndU8),
   (125, Row.twoRegistersOneImmediate Instr.loadIndI8),
   (126, Row.twoRegistersOneImmediate Instr.loadIndU16),
   (127, Row.twoRegistersOneImmediate Instr.loadIndI16),
   (128, Row.twoRegistersOneImmediate Instr.loadIndU32),
   (129, Row.twoRegistersOneImmediate Instr.loadIndI32),
   (130, Row.twoRegistersOneImmediate Instr.loadIndU64),
   (131, Row.twoRegistersOneImmediate Instr.addImm32),
   (132, Row.twoRegistersOneImmediate Instr.andImm),
   (133, Row.twoRegistersOneImmediate Instr.xorImm),
   (134, Row.twoRegistersOneImmediate Instr.orImm),
   (135, Row.twoRegistersOneImmediate Instr.mulImm32),
   (136, Row.twoRegistersOneImmediate Instr.setLtUImm),
   (137, Row.twoRegistersOneImmediate Instr.setLtSImm),
   (138, Row.twoRegistersOneImmediate Instr.shloLImm32),
   (139, Row.twoRegistersOneImmediate Instr.shloRImm32),
   (140, Row.twoRegistersOneImmediate Instr.sharRImm32),
   (141, Row.twoRegistersOneImmediate Instr.negAddImm32),
   (142, Row.twoRegistersOneImmediate Instr.setGtUImm),
   (143, Row.twoRegistersOneImmediate Instr.setGtSImm)]

/-- The opcode map's rows from opcode 144 to 175 (30_encoding.md R122). -/
def opcodeRows3 : List (Nat × Row) :=
  [(144, Row.twoRegistersOneImmediate Instr.shloLImmAlt32),
   (145, Row.twoRegistersOneImmediate Instr.shloRImmAlt32),
   (146, Row.twoRegistersOneImmediate Instr.sharRImmAlt32),
   (147, Row.twoRegistersOneImmediate Instr.cmovIzImm),
   (148, Row.twoRegistersOneImmediate Instr.cmovNzImm),
   (149, Row.twoRegistersOneImmediate Instr.addImm64),
   (150, Row.twoRegistersOneImmediate Instr.mulImm64),
   (151, Row.twoRegistersOneImmediate Instr.shloLImm64),
   (152, Row.twoRegistersOneImmediate Instr.shloRImm64),
   (153, Row.twoRegistersOneImmediate Instr.sharRImm64),
   (154, Row.twoRegistersOneImmediate Instr.negAddImm64),
   (155, Row.twoRegistersOneImmediate Instr.shloLImmAlt64),
   (156, Row.twoRegistersOneImmediate Instr.shloRImmAlt64),
   (157, Row.twoRegistersOneImmediate Instr.sharRImmAlt64),
   (158, Row.twoRegistersOneImmediate Instr.rotR64Imm),
   (159, Row.twoRegistersOneImmediate Instr.rotR64ImmAlt),
   (160, Row.twoRegistersOneImmediate Instr.rotR32Imm),
   (161, Row.twoRegistersOneImmediate Instr.rotR32ImmAlt),
   (170, Row.twoRegistersOneOffset Instr.branchEq),
   (171, Row.twoRegistersOneOffset Instr.branchNe),
   (172, Row.twoRegistersOneOffset Instr.branchLtU),
   (173, Row.twoRegistersOneOffset Instr.branchLtS),
   (174, Row.twoRegistersOneOffset Instr.branchGeU),
   (175, Row.twoRegistersOneOffset Instr.branchGeS)]

/-- The opcode map's rows from opcode 180 to 212 (30_encoding.md R122). -/
def opcodeRows4 : List (Nat × Row) :=
  [(180, Row.twoRegistersTwoImmediates Instr.loadImmJumpInd),
   (190, Row.threeRegisters Instr.add32),
   (191, Row.threeRegisters Instr.sub32),
   (192, Row.threeRegisters Instr.mul32),
   (193, Row.threeRegisters Instr.divU32),
   (194, Row.threeRegisters Instr.divS32),
   (195, Row.threeRegisters Instr.remU32),
   (196, Row.threeRegisters Instr.remS32),
   (197, Row.threeRegisters Instr.shloL32),
   (198, Row.threeRegisters Instr.shloR32),
   (199, Row.threeRegisters Instr.sharR32),
   (200, Row.threeRegisters Instr.add64),
   (201, Row.threeRegisters Instr.sub64),
   (202, Row.threeRegisters Instr.mul64),
   (203, Row.threeRegisters Instr.divU64),
   (204, Row.threeRegisters Instr.divS64),
   (205, Row.threeRegisters Instr.remU64),
   (206, Row.threeRegisters Instr.remS64),
   (207, Row.threeRegisters Instr.shloL64),
   (208, Row.threeRegisters Instr.shloR64),
   (209, Row.threeRegisters Instr.sharR64),
   (210, Row.threeRegisters Instr.and),
   (211, Row.threeRegisters Instr.xor),
   (212, Row.threeRegisters Instr.or)]

/-- The opcode map's rows from opcode 213 to 230 (30_encoding.md R122). -/
def opcodeRows5 : List (Nat × Row) :=
  [(213, Row.threeRegisters Instr.mulUpperSS),
   (214, Row.threeRegisters Instr.mulUpperUU),
   (215, Row.threeRegisters Instr.mulUpperSU),
   (216, Row.threeRegisters Instr.setLtU),
   (217, Row.threeRegisters Instr.setLtS),
   (218, Row.threeRegisters Instr.cmovIz),
   (219, Row.threeRegisters Instr.cmovNz),
   (220, Row.threeRegisters Instr.rotL64),
   (221, Row.threeRegisters Instr.rotL32),
   (222, Row.threeRegisters Instr.rotR64),
   (223, Row.threeRegisters Instr.rotR32),
   (224, Row.threeRegisters Instr.andInv),
   (225, Row.threeRegisters Instr.orInv),
   (226, Row.threeRegisters Instr.xnor),
   (227, Row.threeRegisters Instr.max),
   (228, Row.threeRegisters Instr.maxU),
   (229, Row.threeRegisters Instr.min),
   (230, Row.threeRegisters Instr.minU)]

/-- The opcode map (30_encoding.md R122), in its order: opcode, shape and instruction. Every opcode that is
not listed is unassigned (R123). -/
def opcodeTable : List (Nat × Row) :=
  opcodeRows0 ++ opcodeRows1 ++ opcodeRows2 ++ opcodeRows3 ++ opcodeRows4 ++ opcodeRows5

/-- The opcode byte of an instruction (30_encoding.md R122). -/
def Instr.opcode : Instr → Nat
  | .trap => 0
  | .fallthrough => 1
  | .ecalli _ => 10
  | .loadImm64 _ _ => 20
  | .storeImmU8 _ _ => 30
  | .storeImmU16 _ _ => 31
  | .storeImmU32 _ _ => 32
  | .storeImmU64 _ _ => 33
  | .jump _ => 40
  | .jumpInd _ _ => 50
  | .loadImm _ _ => 51
  | .loadU8 _ _ => 52
  | .loadI8 _ _ => 53
  | .loadU16 _ _ => 54
  | .loadI16 _ _ => 55
  | .loadU32 _ _ => 56
  | .loadI32 _ _ => 57
  | .loadU64 _ _ => 58
  | .storeU8 _ _ => 59
  | .storeU16 _ _ => 60
  | .storeU32 _ _ => 61
  | .storeU64 _ _ => 62
  | .storeImmIndU8 _ _ _ => 70
  | .storeImmIndU16 _ _ _ => 71
  | .storeImmIndU32 _ _ _ => 72
  | .storeImmIndU64 _ _ _ => 73
  | .loadImmJump _ _ _ => 80
  | .branchEqImm _ _ _ => 81
  | .branchNeImm _ _ _ => 82
  | .branchLtUImm _ _ _ => 83
  | .branchLeUImm _ _ _ => 84
  | .branchGeUImm _ _ _ => 85
  | .branchGtUImm _ _ _ => 86
  | .branchLtSImm _ _ _ => 87
  | .branchLeSImm _ _ _ => 88
  | .branchGeSImm _ _ _ => 89
  | .branchGtSImm _ _ _ => 90
  | .moveReg _ _ => 100
  | .countSetBits64 _ _ => 102
  | .countSetBits32 _ _ => 103
  | .leadingZeroBits64 _ _ => 104
  | .leadingZeroBits32 _ _ => 105
  | .trailingZeroBits64 _ _ => 106
  | .trailingZeroBits32 _ _ => 107
  | .signExtend8 _ _ => 108
  | .signExtend16 _ _ => 109
  | .zeroExtend16 _ _ => 110
  | .reverseBytes _ _ => 111
  | .storeIndU8 _ _ _ => 120
  | .storeIndU16 _ _ _ => 121
  | .storeIndU32 _ _ _ => 122
  | .storeIndU64 _ _ _ => 123
  | .loadIndU8 _ _ _ => 124
  | .loadIndI8 _ _ _ => 125
  | .loadIndU16 _ _ _ => 126
  | .loadIndI16 _ _ _ => 127
  | .loadIndU32 _ _ _ => 128
  | .loadIndI32 _ _ _ => 129
  | .loadIndU64 _ _ _ => 130
  | .addImm32 _ _ _ => 131
  | .andImm _ _ _ => 132
  | .xorImm _ _ _ => 133
  | .orImm _ _ _ => 134
  | .mulImm32 _ _ _ => 135
  | .setLtUImm _ _ _ => 136
  | .setLtSImm _ _ _ => 137
  | .shloLImm32 _ _ _ => 138
  | .shloRImm32 _ _ _ => 139
  | .sharRImm32 _ _ _ => 140
  | .negAddImm32 _ _ _ => 141
  | .setGtUImm _ _ _ => 142
  | .setGtSImm _ _ _ => 143
  | .shloLImmAlt32 _ _ _ => 144
  | .shloRImmAlt32 _ _ _ => 145
  | .sharRImmAlt32 _ _ _ => 146
  | .cmovIzImm _ _ _ => 147
  | .cmovNzImm _ _ _ => 148
  | .addImm64 _ _ _ => 149
  | .mulImm64 _ _ _ => 150
  | .shloLImm64 _ _ _ => 151
  | .shloRImm64 _ _ _ => 152
  | .sharRImm64 _ _ _ => 153
  | .negAddImm64 _ _ _ => 154
  | .shloLImmAlt64 _ _ _ => 155
  | .shloRImmAlt64 _ _ _ => 156
  | .sharRImmAlt64 _ _ _ => 157
  | .rotR64Imm _ _ _ => 158
  | .rotR64ImmAlt _ _ _ => 159
  | .rotR32Imm _ _ _ => 160
  | .rotR32ImmAlt _ _ _ => 161
  | .branchEq _ _ _ => 170
  | .branchNe _ _ _ => 171
  | .branchLtU _ _ _ => 172
  | .branchLtS _ _ _ => 173
  | .branchGeU _ _ _ => 174
  | .branchGeS _ _ _ => 175
  | .loadImmJumpInd _ _ _ _ => 180
  | .add32 _ _ _ => 190
  | .sub32 _ _ _ => 191
  | .mul32 _ _ _ => 192
  | .divU32 _ _ _ => 193
  | .divS32 _ _ _ => 194
  | .remU32 _ _ _ => 195
  | .remS32 _ _ _ => 196
  | .shloL32 _ _ _ => 197
  | .shloR32 _ _ _ => 198
  | .sharR32 _ _ _ => 199
  | .add64 _ _ _ => 200
  | .sub64 _ _ _ => 201
  | .mul64 _ _ _ => 202
  | .divU64 _ _ _ => 203
  | .divS64 _ _ _ => 204
  | .remU64 _ _ _ => 205
  | .remS64 _ _ _ => 206
  | .shloL64 _ _ _ => 207
  | .shloR64 _ _ _ => 208
  | .sharR64 _ _ _ => 209
  | .and _ _ _ => 210
  | .xor _ _ _ => 211
  | .or _ _ _ => 212
  | .mulUpperSS _ _ _ => 213
  | .mulUpperUU _ _ _ => 214
  | .mulUpperSU _ _ _ => 215
  | .setLtU _ _ _ => 216
  | .setLtS _ _ _ => 217
  | .cmovIz _ _ _ => 218
  | .cmovNz _ _ _ => 219
  | .rotL64 _ _ _ => 220
  | .rotL32 _ _ _ => 221
  | .rotR64 _ _ _ => 222
  | .rotR32 _ _ _ => 223
  | .andInv _ _ _ => 224
  | .orInv _ _ _ => 225
  | .xnor _ _ _ => 226
  | .max _ _ _ => 227
  | .maxU _ _ _ => 228
  | .min _ _ _ => 229
  | .minU _ _ _ => 230

/-! ### Decoding -/

/-- Why a byte string holds no instruction. -/
inductive DecodeError where
  /-- No opcode byte stands there: a fetch past the end of the code (60_exceptions.md R349). Safe. -/
  | unmapped
  /-- The opcode byte is not assigned (30_encoding.md R123). Safe. -/
  | unassigned (opcode : Byte)
deriving DecidableEq, Repr

/-- The operands of a row's shape, read from the instruction's bytes `bs` (byte 0 is the opcode) with `L`
operand bytes: the layouts of 30_encoding.md R109 to R121. -/
def Row.decode (bs : List Byte) (L : Nat) : Row → Instr
  | .noArguments i => i
  | .oneImmediate f => f (immAt bs 1 (min 4 L))
  | .oneRegisterOneExtendedWidthImmediate f => f (loReg (byteAt bs 1)) (immAt bs 2 8)
  | .twoImmediates f =>
    let lX := min 4 ((byteAt bs 1).toNat % 8)
    f (immAt bs 2 lX) (immAt bs (2 + lX) (min 4 (L - lX - 1)))
  | .oneOffset f => f (offAt bs 1 (min 4 L))
  | .oneRegisterOneImmediate f => f (loReg (byteAt bs 1)) (immAt bs 2 (min 4 (L - 1)))
  | .oneRegisterTwoImmediates f =>
    let lX := min 4 ((byteAt bs 1).toNat / 16 % 8)
    f (loReg (byteAt bs 1)) (immAt bs 2 lX) (immAt bs (2 + lX) (min 4 (L - lX - 1)))
  | .oneRegisterOneImmediateOneOffset f =>
    let lX := min 4 ((byteAt bs 1).toNat / 16 % 8)
    f (loReg (byteAt bs 1)) (immAt bs 2 lX) (offAt bs (2 + lX) (min 4 (L - lX - 1)))
  | .twoRegisters f => f (loReg (byteAt bs 1)) (hiReg (byteAt bs 1))
  | .twoRegistersOneImmediate f => f (loReg (byteAt bs 1)) (hiReg (byteAt bs 1)) (immAt bs 2 (min 4 (L - 1)))
  | .twoRegistersOneOffset f => f (loReg (byteAt bs 1)) (hiReg (byteAt bs 1)) (offAt bs 2 (min 4 (L - 1)))
  | .twoRegistersTwoImmediates f =>
    let lX := min 4 ((byteAt bs 2).toNat % 8)
    f (loReg (byteAt bs 1)) (hiReg (byteAt bs 1)) (immAt bs 3 lX) (immAt bs (3 + lX) (min 4 (L - lX - 2)))
  | .threeRegisters f =>
    f (regOf (byteAt bs 2).toNat) (loReg (byteAt bs 1)) (hiReg (byteAt bs 1))

/-- The decoder (30_encoding.md R105, R122, R123, R136): the instruction whose opcode byte is the first of
`bs` and which has `L` operand bytes. Operand bytes past the end of `bs` read as 0. -/
def decode (bs : List Byte) (L : Nat) : Except DecodeError Instr :=
  match bs with
  | [] => .error .unmapped
  | op :: _ =>
    match opcodeTable.lookup op.toNat with
    | none => .error (.unassigned op)
    | some row => .ok (row.decode bs L)

/-- The instruction at code offset `i` of an image (30_encoding.md R102, R104, R136). -/
def decodeAt (p : Image) (i : Nat) : Except DecodeError Instr := decode (p.code.drop i) (skip p.mask i)

/-! ### Encoding -/

/-- The shortest length of an immediate that stands for `v` (30_encoding.md R134). -/
def immLen (v : Word) : Nat := ([0, 1, 2, 3].find? fun n => signExtendBytes n v == v).getD 4

/-- An immediate in its shortest form, little-endian (30_encoding.md R107, R134). -/
def encodeImm (v : Word) : List Byte := leBytes (immLen v) v

/-- A displacement as an immediate (30_encoding.md R107). -/
def encodeOff (z : Int) : List Byte := encodeImm (BitVec.ofInt 64 z)

/-- A byte of two nibbles. -/
def nibbles (lo hi : Nat) : Byte := BitVec.ofNat 8 (lo + 16 * hi)

/-- The operand bytes of an argument record, written from the layouts of 30_encoding.md R109 to R121 with the
shortest immediates. -/
def Args.encode : Args → List Byte
  | .noArguments => []
  | .oneImmediate x => encodeImm x
  | .oneRegisterOneExtendedWidthImmediate a x => nibbles a 0 :: leBytes 8 x
  | .twoImmediates x y => nibbles (immLen x) 0 :: (encodeImm x ++ encodeImm y)
  | .oneOffset z => encodeOff z
  | .oneRegisterOneImmediate a x => nibbles a 0 :: encodeImm x
  | .oneRegisterTwoImmediates a x y => nibbles a (immLen x) :: (encodeImm x ++ encodeImm y)
  | .oneRegisterOneImmediateOneOffset a x z => nibbles a (immLen x) :: (encodeImm x ++ encodeOff z)
  | .twoRegisters d a => [nibbles d a]
  | .twoRegistersOneImmediate a b x => nibbles a b :: encodeImm x
  | .twoRegistersOneOffset a b z => nibbles a b :: encodeOff z
  | .twoRegistersTwoImmediates a b x y => nibbles a b :: nibbles (immLen x) 0 :: (encodeImm x ++ encodeImm y)
  | .threeRegisters d a b => [nibbles a b, nibbles d 0]

/-- The encoder: opcode byte, then operand bytes (30_encoding.md R102). The mask marks the first byte only. -/
def encode (i : Instr) : List Byte := BitVec.ofNat 8 i.opcode :: i.args.encode

/-! ### Basic blocks -/

/-- `T`, the block-terminating opcodes (30_encoding.md R131). -/
def isTerminator (op : Nat) : Bool :=
  [0, 1, 40, 50, 180].contains op || (80 ≤ op && op ≤ 90) || (170 ≤ op && op ≤ 175)

/-- `B[o]` (30_encoding.md R130): offset `o` is marked, and is 0 or follows an instruction whose opcode is in
`T`. -/
def isBlockStart (p : Image) (o : Nat) : Bool :=
  p.mask.getD o false && (o == 0 || (List.range o).any fun n =>
    p.mask.getD n false && isTerminator (byteAt p.code n).toNat && n + 1 + skip p.mask n == o)

/-- The basic-block map `B`, one bit for each code offset (30_encoding.md R130). -/
def blockMap (p : Image) : List Bool := (List.range p.code.length).map (isBlockStart p)

/-! ### Table words -/

/-- The bytes of the longest instruction (25 of them) of a word of `nbits` bits, bit 0 the least significant bit of the
first byte; every bit above is 0. -/
def wordBytes (nbits w : Nat) : List Byte :=
  (List.range (1 + config.maxSkip)).map fun j => BitVec.ofNat 8 ((w % 2 ^ nbits) >>> (8 * j))

/-- The mask of one instruction that fills those bytes. -/
def wordMask : List Bool := true :: List.replicate config.maxSkip false

/-- The instruction the decoder reads from a word numbered as spec/opcode_table.json numbers it, standing
alone in an image that marks its first byte (log 8). -/
def decodeTableWord (nbits w : Nat) : Option Instr :=
  (decodeAt { code := wordBytes nbits w, mask := wordMask } 0).toOption

end Sys2Proof
end

