-- ==== Sys2Proof/Machine/Operands.lean ====
section
/-! DEFINITION. The values the instructions compute (40_math.md, 41_shift.md, 42_bit.md) and the effective
addresses they form. No value here raises, traps or sets a flag (40_math.md R150). -/

namespace Sys2Proof.Machine

/-! ### Widths and signs (00_scope.md R9) -/

/-- `lo32(v)`. -/
def lo32 (v : Word) : BitVec 32 := v.setWidth 32

/-- `sext_32(w)`, what a `_32` instruction writes (40_math.md R151). -/
def sext32 (w : BitVec 32) : Word := w.signExtend 64

/-- `from_signed(z)`: an integer's 64-bit two's-complement pattern. -/
def fromSigned (z : Int) : Word := BitVec.ofInt 64 z

/-- A count or a truth value as a register value. -/
def ofCount (n : Nat) : Word := BitVec.ofNat 64 n

/-! ### Math (40_math.md) -/

def add32 (a b : Word) : Word := sext32 (lo32 a + lo32 b)
def add64 (a b : Word) : Word := a + b
def sub32 (a b : Word) : Word := sext32 (lo32 a - lo32 b)
def sub64 (a b : Word) : Word := a - b
def mul32 (a b : Word) : Word := sext32 (lo32 a * lo32 b)
def mul64 (a b : Word) : Word := a * b

/-- R165: the floor of the signed product over 2^64. -/
def mulUpperSS (a b : Word) : Word := fromSigned (a.toInt * b.toInt / 0x10000000000000000)

/-- R166: the floor of the unsigned product over 2^64. -/
def mulUpperUU (a b : Word) : Word := BitVec.ofNat 64 (a.toNat * b.toNat / 0x10000000000000000)

/-- R167: the first factor signed, the second unsigned. -/
def mulUpperSU (a b : Word) : Word := fromSigned (a.toInt * b.toNat / 0x10000000000000000)

/-- The `DIV_U` column of R152 at width `w`: all ones for a divisor of 0. -/
def divUnsigned {w : Nat} (a b : BitVec w) : BitVec w := if b = 0 then BitVec.allOnes w else a / b

/-- The `REM_U` column of R152 at width `w`: the dividend for a divisor of 0. -/
def remUnsigned {w : Nat} (a b : BitVec w) : BitVec w := if b = 0 then a else a % b

/-- The `DIV_S` column of R152 at width `w`: all ones for a divisor of 0, the dividend on overflow, otherwise
rounded toward zero. -/
def divSigned {w : Nat} (a b : BitVec w) : BitVec w :=
  if b = 0 then BitVec.allOnes w
  else if a = BitVec.intMin w ∧ b = -1 then a
  else BitVec.ofInt w (a.toInt.tdiv b.toInt)

/-- The `REM_S` column of R152 at width `w`: 0 on overflow, the dividend for a divisor of 0, otherwise the
remainder with the dividend's sign. -/
def remSigned {w : Nat} (a b : BitVec w) : BitVec w :=
  if a = BitVec.intMin w ∧ b = -1 then 0
  else if b = 0 then a
  else BitVec.ofInt w (a.toInt.tmod b.toInt)

def divU32 (a b : Word) : Word := sext32 (divUnsigned (lo32 a) (lo32 b))
def divU64 (a b : Word) : Word := divUnsigned a b
def divS32 (a b : Word) : Word := sext32 (divSigned (lo32 a) (lo32 b))
def divS64 (a b : Word) : Word := divSigned a b
def remU32 (a b : Word) : Word := sext32 (remUnsigned (lo32 a) (lo32 b))
def remU64 (a b : Word) : Word := remUnsigned a b
def remS32 (a b : Word) : Word := sext32 (remSigned (lo32 a) (lo32 b))
def remS64 (a b : Word) : Word := remSigned a b

/-- R176. -/
def maxSigned (a b : Word) : Word := if b.toInt ≤ a.toInt then a else b
/-- R177. -/
def maxUnsigned (a b : Word) : Word := if b.toNat ≤ a.toNat then a else b
/-- R178. -/
def minSigned (a b : Word) : Word := if a.toInt ≤ b.toInt then a else b
/-- R179. -/
def minUnsigned (a b : Word) : Word := if a.toNat ≤ b.toNat then a else b

/-! ### Shifts (41_shift.md R190): `v` the value, `n` the amount, taken modulo the width -/

def shloL32 (v n : Word) : Word := sext32 (lo32 v <<< (n.toNat % 32))
def shloL64 (v n : Word) : Word := v <<< (n.toNat % 64)
def shloR32 (v n : Word) : Word := sext32 (lo32 v >>> (n.toNat % 32))
def shloR64 (v n : Word) : Word := v >>> (n.toNat % 64)
def sharR32 (v n : Word) : Word := sext32 ((lo32 v).sshiftRight (n.toNat % 32))
def sharR64 (v n : Word) : Word := v.sshiftRight (n.toNat % 64)

/-! ### Bits (42_bit.md) -/

def andInv (a b : Word) : Word := a &&& ~~~b
def orInv (a b : Word) : Word := a ||| ~~~b
def xnor (a b : Word) : Word := ~~~(a ^^^ b)

/-! Rotates (R210): `v` the value, `n` the amount, taken modulo the width. -/

def rotL32 (v n : Word) : Word := sext32 ((lo32 v).rotateLeft (n.toNat % 32))
def rotL64 (v n : Word) : Word := v.rotateLeft (n.toNat % 64)
def rotR32 (v n : Word) : Word := sext32 ((lo32 v).rotateRight (n.toNat % 32))
def rotR64 (v n : Word) : Word := v.rotateRight (n.toNat % 64)

/-- The number of 1 bits (R228, R229). -/
def countSetBits {w : Nat} (v : BitVec w) : Nat := ((List.range w).filter fun j => v.getLsbD j).length

/-- The number of consecutive 0 bits from the top bit downward; `w` for 0 (R230, R231). -/
def leadingZeroBits {w : Nat} (v : BitVec w) : Nat :=
  ((List.range w).takeWhile fun j => !v.getLsbD (w - 1 - j)).length

/-- The number of consecutive 0 bits from bit 0 upward; `w` for 0 (R232, R233). -/
def trailingZeroBits {w : Nat} (v : BitVec w) : Nat :=
  ((List.range w).takeWhile fun j => !v.getLsbD j).length

/-- R237: byte `j` of the result is byte `7 - j` of the source. -/
def reverseBytes (v : Word) : Word := BitVec.ofNat 64 (leValue (leBytes 8 v).reverse)

/-! ### Effective addresses -/

/-- A direct access's address, `immX mod 2^32` (45_load.md R260, 46_store.md R280). -/
def directAddr (immX : Word) : Nat := immX.toNat % memorySize

/-- An indirect access's address, `(base + immX) mod 2^32` (45_load.md R260, 46_store.md R280). -/
def indirectAddr (base immX : Word) : Nat := (base.toNat + immX.toNat) % memorySize

/-- A dynamic jump's address, `(base + imm) mod 2^32` (47_control_flow.md R301, R320, R321). -/
def jumpAddr (base imm : Word) : BitVec 32 := (base + imm).setWidth 32

end Sys2Proof.Machine
end

