-- ==== Sys2Proof/Machine/State.lean ====
section
/-! DEFINITION. The state of one interpreter instance as plain data (10_state.md), the reasons an operation can
stop, and the state right after reset. -/

namespace Sys2Proof.Machine

/-- The state of a page (20_memory.md R62). -/
inductive PageState where
  | absent
  | readable
  | writable
deriving DecidableEq, Repr

/-- The data memory (10_state.md R32, R34). Both lists are in one canonical form, `Memory.wf`: keys strictly
rising, no entry equal to what an unlisted key stands for. -/
structure Memory where
  /-- Page number and state; an unlisted page is Absent (20_memory.md R78). -/
  pages : List (Nat × PageState) := []
  /-- Address and byte; an unlisted byte of a mapped page is 0 (20_memory.md R80). -/
  cells : List Host.Cell := []
  /-- `heapStart` (10_state.md R34), carried for the host. -/
  heapStart : Nat := 0
  /-- `heapEnd` (10_state.md R34), carried for the host. -/
  heapEnd : Nat := 0
  /-- `sbrkIndex` (10_state.md R34), carried for the host. -/
  sbrkIndex : Nat := 0
deriving DecidableEq, Repr

/-- The status (10_state.md R26, 60_exceptions.md R340). -/
inductive Status where
  /-- Running. -/
  | ok
  /-- Clean program exit. -/
  | halt
  /-- Invalid jump, trap, failed memory access, unassigned opcode. -/
  | panic
  /-- Gas exhausted. -/
  | oog
  /-- No code byte at the program counter. -/
  | fault (address : BitVec 32)
  /-- Suspended at a host call. -/
  | host (callIndex : BitVec 64)
deriving DecidableEq, Repr

/-- The lifecycle flag (10_state.md R29). -/
inductive Life where
  | uninitialized
  | initialized
deriving DecidableEq, Repr

/-- The state of one instance (10_state.md). -/
structure State where
  /-- The parameters of the step (00_scope.md R7, 10_state.md R36): the model's own field (log 1). -/
  params : Params := {}
  /-- 10_state.md R29: an instance starts Uninitialized. -/
  life : Life := .uninitialized
  /-- 10_state.md R26. -/
  status : Status := .ok
  /-- 10_state.md R24. -/
  pc : CodeAddr := 0
  /-- The gas counter, signed (10_state.md R27). -/
  gas : Gas := 0
  /-- `x[0]` to `x[12]` (10_state.md R20). -/
  regs : Vector Word 13 := Vector.replicate 13 0
  /-- The resume latch, meaningful only while the status is HOST (10_state.md R28). -/
  resumePc : CodeAddr := 0
  /-- 10_state.md R32, R34. -/
  mem : Memory := {}
  /-- `(c, k, J)` (10_state.md R33). -/
  image : Image := {}
  /-- `B`, the basic-block map (10_state.md R33). -/
  blocks : List Bool := []
deriving DecidableEq, Repr

/-- The errors of the memory primitives (20_memory.md R65 to R68). The host's `loadInto` and `storeFrom` answer
them; inside an instruction they become the status PANIC (R69), so a step never answers a fault. -/
inductive Fault where
  /-- A page of the range is Absent, or Readable and the access is a write (20_memory.md R68). Raised by the
  host's accesses. Safe: the spec gives this error, and no byte moves. -/
  | pageFault (page : Nat) (isWrite : Bool)
  /-- The range passes the top of the address space (20_memory.md R67). Raised by the host's accesses. Safe: the
  spec gives this error, and no byte moves. -/
  | outOfBounds (address length : Nat)
deriving DecidableEq, Repr

/-- The setup errors (60_exceptions.md R370): the operation is not enabled and changes no state. -/
inductive Refusal where
  /-- Raised by exec's arms for an instruction that has no meaning yet; no arm is left. Safe. -/
  | notModelled (mnemonic : String)
  /-- Raised by `step` and every host operation but reset and destroy on an Uninitialized instance
  (60_exceptions.md R341, 70_reset_and_hazards.md R383). Safe: the spec gives this refusal. -/
  | uninitialized
  /-- Raised by the snapshot and the SPI loader (60_exceptions.md R370 (a), (b)). Safe: the spec's own. -/
  | invalidLength
  /-- Raised by reset on a malformed container or image (60_exceptions.md R370 (c)). Safe: the spec's own. -/
  | malformedImage
  /-- Raised by the memory builder (60_exceptions.md R370 (d), 20_memory.md R78). Safe: the spec's own. -/
  | builderMisuse
  /-- Raised by a register accessor given an index above 12 (60_exceptions.md R370 (e)). Safe: the spec's own. -/
  | registerIndex
  /-- Raised by `getBytesAsLittleEndian` given a length outside 1 to 8, for which 10_state.md R22 states no
  result. Safe: log 12. -/
  | accessorLength
  /-- Raised by `chargeGas` while the status is not HOST (93_implementation_defined.md U32). Safe: the spec's
  own, log 7. -/
  | notSuspended
deriving DecidableEq, Repr

/-- The machine right after reset (10_state.md R37) with no registers and no memory argument: status OK,
Initialized, registers 0, every page Absent. The arguments the host must give (code, pc, gas) are the empty
image, 0 and 0, and the unspecified fields are 0: DESIGN CHOICE, unsafe, log 2 and log 3. -/
def State.reset : State where
  params := {}
  life := .initialized
  status := .ok
  pc := 0
  gas := 0
  regs := Vector.replicate 13 0
  resumePc := 0
  mem := {}
  image := {}
  blocks := []

/-- What an operation over the state answers. -/
abbrev Result := Host.Outcome State Fault Refusal

end Sys2Proof.Machine
end

