-- ==== Sys2Proof/Machine/Ops.lean ====
section
/-! DEFINITION. The named operations over registers, memory, the program counter, gas and status that every
meaning and the step are made of. -/

namespace Sys2Proof.Machine

/-! ### Sparse maps in canonical form -/

/-- The value a sorted list of key and value holds at a key; `d` where none is listed. -/
def sparseGet {α : Type} (d : α) : List (Nat × α) → Nat → α
  | [], _ => d
  | (j, v) :: l, k => if j = k then v else sparseGet d l k

/-- Put a value at a key, keeping the keys rising and listing no `d`. -/
def sparseSet {α : Type} [DecidableEq α] (d : α) : List (Nat × α) → Nat → α → List (Nat × α)
  | [], k, v => if v = d then [] else [(k, v)]
  | (j, w) :: l, k, v =>
    if k < j then (if v = d then (j, w) :: l else (k, v) :: (j, w) :: l)
    else if k = j then (if v = d then l else (k, v) :: l)
    else (j, w) :: sparseSet d l k v

/-- The canonical form: keys strictly rising, every key below `bound`, no entry `d`. -/
abbrev SparseWf {α : Type} (d : α) (bound : Nat) (l : List (Nat × α)) : Prop :=
  l.Pairwise (fun x y => x.1 < y.1) ∧ ∀ x ∈ l, x.1 < bound ∧ x.2 ≠ d

/-! ### Data memory -/

/-- The state of a page (20_memory.md R61, R62). -/
def Memory.pageState (m : Memory) (p : Nat) : PageState := sparseGet .absent m.pages p

/-- The byte at a data address (10_state.md R32); 0 where nothing was supplied or written (20_memory.md R80). -/
def Memory.byte (m : Memory) (a : Nat) : Byte := sparseGet 0 m.cells a

/-- Put one byte (20_memory.md R74). -/
def Memory.setByte (m : Memory) (a : Nat) (b : Byte) : Memory := { m with cells := sparseSet 0 m.cells a b }

/-- Put consecutive bytes from an address on. -/
def Memory.setBytes (m : Memory) (a : Nat) : List Byte → Memory
  | [] => m
  | b :: bs => (m.setByte a b).setBytes (a + 1) bs

/-- The canonical form of the memory: both lists in canonical form over the address space, and no content for an
Absent page (10_state.md R32). -/
abbrev Memory.wf (m : Memory) : Prop :=
  SparseWf .absent maxPages m.pages ∧ SparseWf 0 memorySize m.cells ∧
    ∀ c ∈ m.cells, m.pageState (c.1 / config.pageSize) ≠ .absent

/-- Whether a page refuses the access: Absent, or Readable and the access is a write (20_memory.md R62). -/
def Memory.denies (m : Memory) (isWrite : Bool) (p : Nat) : Bool :=
  match m.pageState p with
  | .absent => true
  | .readable => isWrite
  | .writable => false

/-- The pages of `n > 0` bytes at address `a`, ascending (20_memory.md R65 step 3). -/
def pagesOf (a n : Nat) : List Nat :=
  List.range' (a / config.pageSize) ((a + n - 1) / config.pageSize - a / config.pageSize + 1)

/-- `check(a, n, w)` (20_memory.md R65): zero length, then bounds, then pages in ascending order. -/
def Memory.check (m : Memory) (a n : Nat) (isWrite : Bool) : Except Fault Unit :=
  if n = 0 then .ok ()
  else if memorySize < a + n then .error (.outOfBounds a n)
  else match (pagesOf a n).find? (m.denies isWrite) with
    | some p => .error (.pageFault p isWrite)
    | none => .ok ()

/-- The `n` bytes at address `a`, the lowest address first. -/
def Memory.bytes (m : Memory) (a n : Nat) : List Byte := (List.range n).map fun j => m.byte (a + j)

/-- `loadInto` (20_memory.md R65): the bytes, or the error. -/
def Memory.loadInto (m : Memory) (a n : Nat) : Except Fault (List Byte) :=
  match m.check a n false with
  | .error e => .error e
  | .ok _ => .ok (m.bytes a n)

/-- `storeFrom` (20_memory.md R65, R70): all bytes are written, or none. -/
def Memory.storeFrom (m : Memory) (a : Nat) (bs : List Byte) : Except Fault Memory :=
  match m.check a bs.length true with
  | .error e => .error e
  | .ok _ => .ok (m.setBytes a bs)

/-- `MemRead(a, n)` (20_memory.md R73): the unsigned little-endian value. -/
def Memory.read (m : Memory) (a n : Nat) : Except Fault Word :=
  match m.loadInto a n with
  | .error e => .error e
  | .ok bs => .ok (BitVec.ofNat 64 (leValue bs))

/-- `MemWrite(a, n, v)` (20_memory.md R74): the low `n` bytes of `v`, little-endian. -/
def Memory.write (m : Memory) (a n : Nat) (v : Word) : Except Fault Memory := m.storeFrom a (leBytes n v)

/-! ### Registers and the program counter -/

/-- `x[r]` (10_state.md R20). -/
def State.reg (s : State) (r : Reg) : Word := s.regs[r]

/-- `x[r] <- v` (10_state.md R20). -/
def State.setReg (s : State) (r : Reg) (v : Word) : State := { s with regs := s.regs.set r v }

/-- `len = 1 + skip(pc)` (30_encoding.md R104). -/
def State.instrLen (s : State) : Nat := 1 + skip s.image.mask s.pc.toNat

/-- `pc + len`, which does not wrap in a well-formed image (10_state.md R25 (d)). -/
def State.nextPc (s : State) : CodeAddr := s.pc + BitVec.ofNat 32 s.instrLen

/-- The end of an instruction that raises nothing and assigns no `pc` (60_exceptions.md R341 step 11). -/
def State.advance (s : State) : State := { s with pc := s.nextPc }

/-- Go to a code offset (10_state.md R25 (a)). -/
def State.goTo (s : State) (target : CodeAddr) : State := { s with pc := target }

/-- The end of an instruction that writes one register. -/
def State.writeReg (s : State) (r : Reg) (v : Word) : Result := .next (s.setReg r v).advance

/-! ### Taking an exception, and the return from one -/

/-- Taking an exception (60_exceptions.md R343, R345 to R349, R353): the step ends with the status, `pc` stays on
the instruction, and what the instruction wrote before stays written. A host call also records the resume
offset (R348). There is no vector and no saved state but this (R350). -/
def raise (st : Status) (s : State) : Result :=
  match st with
  | .host i => .next { s with status := .host i, resumePc := s.nextPc }
  | st => .next { s with status := st }

/-- The return from a host call (60_exceptions.md R341 step 2, R355): in HOST, `pc` becomes the resume offset and
the status OK; in any other status nothing changes. -/
def resume (s : State) : State :=
  match s.status with
  | .host _ => { s with pc := s.resumePc, status := .ok }
  | _ => s

/-! ### Gas -/

/-- `charge(cost)` (60_exceptions.md R344): no partial charge; OOG and nothing else when the rest would be
negative. -/
def charge (cost : Nat) (s : State) : State :=
  if s.gas.toInt - cost < 0 then { s with status := .oog }
  else { s with gas := BitVec.ofInt config.gasBits (s.gas.toInt - cost) }

/-! ### Loads and stores -/

/-- A load (45_load.md R260): read `n` bytes, extend the value, write the destination; PANIC if the access
fails. -/
def load (rA : Reg) (a n : Nat) (extend : Word → Word) (s : State) : Result :=
  match s.mem.read a n with
  | .error _ => raise .panic s
  | .ok v => s.writeReg rA (extend v)

/-- A store (46_store.md R280): write the low `n` bytes of `v`; PANIC with memory unchanged if the access
fails. -/
def store (a n : Nat) (v : Word) (s : State) : Result :=
  match s.mem.write a n v with
  | .error _ => raise .panic s
  | .ok m => .next { s with mem := m }.advance

/-! ### Control transfer -/

/-- `B[o]` as the step consults it (30_encoding.md R130, 20_memory.md R85). -/
def State.blockAt (s : State) (o : Nat) : Bool := s.blocks.getD o false

/-- `T = pc + off`, not reduced (47_control_flow.md R300). -/
def State.branchTarget (s : State) (off : Int) : Int := s.pc.toNat + off

/-- A static target is legal: inside the code and a basic-block start (47_control_flow.md R300). -/
def State.legalTarget (s : State) (t : Int) : Bool :=
  decide (0 ≤ t) && decide (t < s.image.code.length) && s.blockAt t.toNat

/-- `branch(pc + off, cond)` (47_control_flow.md R300). -/
def branch (off : Int) (cond : Bool) (s : State) : Result :=
  if cond = false then .next s.advance
  else if s.legalTarget (s.branchTarget off) then .next (s.goTo (BitVec.ofInt 32 (s.branchTarget off)))
  else raise .panic s

/-- The third requirement of a dynamic jump: aligned, in the jump table, a basic-block start inside the code
(47_control_flow.md R301 step 3). -/
def State.legalJump (s : State) (a : BitVec 32) : Bool :=
  a.toNat % s.params.jumpAlign == 0 && s.image.jumpTable.contains a.toNat &&
    decide (a.toNat < s.image.code.length) && s.blockAt a.toNat

/-- `djump(a)` (47_control_flow.md R301): 0, then the exit address, then legality. -/
def djump (a : BitVec 32) (s : State) : Result :=
  if a = 0 then raise .panic s
  else if a = s.params.exitAddr then raise .halt s
  else if s.legalJump a then .next (s.goTo a)
  else raise .panic s

/-! ### Fetch and the step -/

/-- Fetch and decode at `pc` (60_exceptions.md R341 steps 4 and 10); the mask bit at `pc` is not consulted. -/
def fetch (s : State) : Except DecodeError Instr := decodeAt s.image s.pc.toNat

/-- The cost of the step (60_exceptions.md R341 step 5): an unassigned opcode and a fetch past the end cost what
TRAP costs. -/
def fetchCost (s : State) : Nat :=
  match fetch s with
  | .ok i => s.params.gasCost i.opcode
  | .error _ => s.params.gasCost Instr.trap.opcode

/-- What follows a paid fetch (60_exceptions.md R341 steps 8 to 11). -/
def execFetched (run : Instr → State → Result) (f : Except DecodeError Instr) (s : State) : Result :=
  match f with
  | .error .unmapped => raise (.fault s.pc) s
  | .error (.unassigned _) => raise .panic s
  | .ok i => run i s

/-- One cycle from status OK (60_exceptions.md R341 steps 4 to 12). -/
def cycle (run : Instr → State → Result) (s : State) : Result :=
  let paid := charge (fetchCost s) s
  if paid.status = .oog then .next paid else execFetched run (fetch s) paid

/-- `nextStep()` (60_exceptions.md R341) over the meaning of an instruction: refused when Uninitialized, resumed
when suspended, unchanged in a terminal status (R354), one cycle otherwise. -/
def nextStep (run : Instr → State → Result) (s : State) : Result :=
  match s.life with
  | .uninitialized => .refused .uninitialized
  | .initialized =>
    match (resume s).status with
    | .ok => cycle run (resume s)
    | _ => .next (resume s)

/-! ### Placing an instruction -/

/-- The offset the next step fetches at: `resumePc` while suspended, `pc` otherwise (60_exceptions.md R341). -/
def State.fetchPc (s : State) : CodeAddr :=
  match s.status with
  | .host _ => s.resumePc
  | _ => s.pc

/-- A list with `new` in place of what stood from index `p` on, filled up to `p` where it was shorter. -/
def overlay {α : Type} (fill : α) (l : List α) (p : Nat) (new : List α) : List α :=
  l.take p ++ List.replicate (p - l.length) fill ++ new ++ l.drop (p + new.length)

/-- The image with one table word's 25 bytes at an offset, marked as one instruction. -/
def placeWord (p : Image) (at_ : Nat) (nbits w : Nat) : Image :=
  { p with code := overlay 0 p.code at_ (wordBytes nbits w), mask := overlay false p.mask at_ wordMask }

/-- Gas for one step at least: the budget, or the cost of the next fetch if that is more. -/
def State.withGasFor (cost : Nat) (s : State) : State :=
  if s.gas.toInt < cost then { s with gas := BitVec.ofNat config.gasBits cost } else s

/-- Load an image, with the basic-block map computed from it (70_reset_and_hazards.md R380). -/
def State.loadImage (s : State) (p : Image) : State := { s with image := p, blocks := blockMap p }

/-- Ready to execute: initialized, and OK unless it is suspended at a host call. -/
def State.ready (s : State) : State :=
  { s with life := .initialized, status := match s.status with | .host i => .host i | _ => .ok }

end Sys2Proof.Machine
end

