-- ==== Sys2Proof/Machine/Bit.lean ====
section
/-! DEFINITION. The meanings of the bit instructions (42_bit.md). Sources are read before the destination is written. -/

namespace Sys2Proof.Machine

/-- `AND`, 42_bit.md R211. -/
def execAnd (rD rA rB : Reg) (s : State) : Result :=
  s.writeReg rD (s.reg rA &&& s.reg rB)

/-- `XOR`, 42_bit.md R212. -/
def execXor (rD rA rB : Reg) (s : State) : Result :=
  s.writeReg rD (s.reg rA ^^^ s.reg rB)

/-- `OR`, 42_bit.md R213. -/
def execOr (rD rA rB : Reg) (s : State) : Result :=
  s.writeReg rD (s.reg rA ||| s.reg rB)

/-- `AND_IMM`, 42_bit.md R214. -/
def execAndImm (rA rB : Reg) (immX : Word) (s : State) : Result :=
  s.writeReg rA (s.reg rB &&& immX)

/-- `XOR_IMM`, 42_bit.md R215. -/
def execXorImm (rA rB : Reg) (immX : Word) (s : State) : Result :=
  s.writeReg rA (s.reg rB ^^^ immX)

/-- `OR_IMM`, 42_bit.md R216. -/
def execOrImm (rA rB : Reg) (immX : Word) (s : State) : Result :=
  s.writeReg rA (s.reg rB ||| immX)

/-- `AND_INV`, 42_bit.md R217. -/
def execAndInv (rD rA rB : Reg) (s : State) : Result :=
  s.writeReg rD (andInv (s.reg rA) (s.reg rB))

/-- `OR_INV`, 42_bit.md R218. -/
def execOrInv (rD rA rB : Reg) (s : State) : Result :=
  s.writeReg rD (orInv (s.reg rA) (s.reg rB))

/-- `XNOR`, 42_bit.md R219. -/
def execXnor (rD rA rB : Reg) (s : State) : Result :=
  s.writeReg rD (xnor (s.reg rA) (s.reg rB))

/-- `ROT_L_64`, 42_bit.md R220. -/
def execRotL64 (rD rA rB : Reg) (s : State) : Result :=
  s.writeReg rD (rotL64 (s.reg rA) (s.reg rB))

/-- `ROT_L_32`, 42_bit.md R221. -/
def execRotL32 (rD rA rB : Reg) (s : State) : Result :=
  s.writeReg rD (rotL32 (s.reg rA) (s.reg rB))

/-- `ROT_R_64`, 42_bit.md R222. -/
def execRotR64 (rD rA rB : Reg) (s : State) : Result :=
  s.writeReg rD (rotR64 (s.reg rA) (s.reg rB))

/-- `ROT_R_32`, 42_bit.md R223. -/
def execRotR32 (rD rA rB : Reg) (s : State) : Result :=
  s.writeReg rD (rotR32 (s.reg rA) (s.reg rB))

/-- `ROT_R_64_IMM`, 42_bit.md R224. -/
def execRotR64Imm (rA rB : Reg) (immX : Word) (s : State) : Result :=
  s.writeReg rA (rotR64 (s.reg rB) immX)

/-- `ROT_R_64_IMM_ALT`, 42_bit.md R225. -/
def execRotR64ImmAlt (rA rB : Reg) (immX : Word) (s : State) : Result :=
  s.writeReg rA (rotR64 immX (s.reg rB))

/-- `ROT_R_32_IMM`, 42_bit.md R226. -/
def execRotR32Imm (rA rB : Reg) (immX : Word) (s : State) : Result :=
  s.writeReg rA (rotR32 (s.reg rB) immX)

/-- `ROT_R_32_IMM_ALT`, 42_bit.md R227. -/
def execRotR32ImmAlt (rA rB : Reg) (immX : Word) (s : State) : Result :=
  s.writeReg rA (rotR32 immX (s.reg rB))

/-- `COUNT_SET_BITS_64`, 42_bit.md R228. -/
def execCountSetBits64 (rD rA : Reg) (s : State) : Result :=
  s.writeReg rD (ofCount (countSetBits (s.reg rA)))

/-- `COUNT_SET_BITS_32`, 42_bit.md R229. -/
def execCountSetBits32 (rD rA : Reg) (s : State) : Result :=
  s.writeReg rD (ofCount (countSetBits (lo32 (s.reg rA))))

/-- `LEADING_ZERO_BITS_64`, 42_bit.md R230. -/
def execLeadingZeroBits64 (rD rA : Reg) (s : State) : Result :=
  s.writeReg rD (ofCount (leadingZeroBits (s.reg rA)))

/-- `LEADING_ZERO_BITS_32`, 42_bit.md R231. -/
def execLeadingZeroBits32 (rD rA : Reg) (s : State) : Result :=
  s.writeReg rD (ofCount (leadingZeroBits (lo32 (s.reg rA))))

/-- `TRAILING_ZERO_BITS_64`, 42_bit.md R232. -/
def execTrailingZeroBits64 (rD rA : Reg) (s : State) : Result :=
  s.writeReg rD (ofCount (trailingZeroBits (s.reg rA)))

/-- `TRAILING_ZERO_BITS_32`, 42_bit.md R233. -/
def execTrailingZeroBits32 (rD rA : Reg) (s : State) : Result :=
  s.writeReg rD (ofCount (trailingZeroBits (lo32 (s.reg rA))))

/-- `SIGN_EXTEND_8`, 42_bit.md R234. -/
def execSignExtend8 (rD rA : Reg) (s : State) : Result :=
  s.writeReg rD (signExtendBytes 1 (s.reg rA))

/-- `SIGN_EXTEND_16`, 42_bit.md R235. -/
def execSignExtend16 (rD rA : Reg) (s : State) : Result :=
  s.writeReg rD (signExtendBytes 2 (s.reg rA))

/-- `ZERO_EXTEND_16`, 42_bit.md R236. -/
def execZeroExtend16 (rD rA : Reg) (s : State) : Result :=
  s.writeReg rD (((s.reg rA).setWidth 16).setWidth 64)

/-- `REVERSE_BYTES`, 42_bit.md R237. -/
def execReverseBytes (rD rA : Reg) (s : State) : Result :=
  s.writeReg rD (reverseBytes (s.reg rA))

end Sys2Proof.Machine
end

