-- ==== Sys2Proof/Machine/Flags.lean ====
section
/-! DEFINITION. The comparisons. The machine has no flags (10_state.md R30): a comparison writes 0 or 1 to a
register (43_boolean.md R240) or decides a branch (47_control_flow.md R300). -/

namespace Sys2Proof.Machine

/-- The relations the comparisons and branches test; `U` on the unsigned, `S` on the signed views. -/
inductive Cond where
  | eq | ne | ltU | leU | geU | gtU | ltS | leS | geS | gtS
deriving DecidableEq, Repr

/-- Whether the relation holds of the left and the right value, on all 64 bits (43_boolean.md R240,
47_control_flow.md R303 to R318). -/
def Cond.holds : Cond → Word → Word → Bool
  | .eq, a, b => decide (a = b)
  | .ne, a, b => decide (a ≠ b)
  | .ltU, a, b => decide (a.toNat < b.toNat)
  | .leU, a, b => decide (a.toNat ≤ b.toNat)
  | .geU, a, b => decide (b.toNat ≤ a.toNat)
  | .gtU, a, b => decide (b.toNat < a.toNat)
  | .ltS, a, b => decide (a.toInt < b.toInt)
  | .leS, a, b => decide (a.toInt ≤ b.toInt)
  | .geS, a, b => decide (b.toInt ≤ a.toInt)
  | .gtS, a, b => decide (b.toInt < a.toInt)

/-- The 64-bit value 1 if the relation holds, 0 if not (43_boolean.md R240). -/
def Cond.value (c : Cond) (a b : Word) : Word := if c.holds a b then 1 else 0

end Sys2Proof.Machine
end

