-- ==== Sys2Proof/Machine/Boolean.lean ====
section
/-! DEFINITION. The meanings of the boolean instructions (43_boolean.md). Sources are read before the destination is written. -/

namespace Sys2Proof.Machine

/-- `SET_LT_U`, 43_boolean.md R241. -/
def execSetLtU (rD rA rB : Reg) (s : State) : Result :=
  s.writeReg rD (Cond.value .ltU (s.reg rA) (s.reg rB))

/-- `SET_LT_S`, 43_boolean.md R242. -/
def execSetLtS (rD rA rB : Reg) (s : State) : Result :=
  s.writeReg rD (Cond.value .ltS (s.reg rA) (s.reg rB))

/-- `SET_LT_U_IMM`, 43_boolean.md R243. -/
def execSetLtUImm (rA rB : Reg) (immX : Word) (s : State) : Result :=
  s.writeReg rA (Cond.value .ltU (s.reg rB) immX)

/-- `SET_LT_S_IMM`, 43_boolean.md R244. -/
def execSetLtSImm (rA rB : Reg) (immX : Word) (s : State) : Result :=
  s.writeReg rA (Cond.value .ltS (s.reg rB) immX)

/-- `SET_GT_U_IMM`, 43_boolean.md R245. -/
def execSetGtUImm (rA rB : Reg) (immX : Word) (s : State) : Result :=
  s.writeReg rA (Cond.value .gtU (s.reg rB) immX)

/-- `SET_GT_S_IMM`, 43_boolean.md R246. -/
def execSetGtSImm (rA rB : Reg) (immX : Word) (s : State) : Result :=
  s.writeReg rA (Cond.value .gtS (s.reg rB) immX)

end Sys2Proof.Machine
end

