-- ==== Sys2Proof/Machine/ControlFlow.lean ====
section
/-! DEFINITION. The meanings of the jumps, branches and calls (47_control_flow.md). Sources are read before the destination is written. -/

namespace Sys2Proof.Machine

/-- `JUMP`, 47_control_flow.md R302. -/
def execJump (offX : Int) (s : State) : Result :=
  branch offX true s

/-- `BRANCH_EQ`, 47_control_flow.md R303. -/
def execBranchEq (rA rB : Reg) (offX : Int) (s : State) : Result :=
  branch offX (Cond.holds .eq (s.reg rA) (s.reg rB)) s

/-- `BRANCH_NE`, 47_control_flow.md R304. -/
def execBranchNe (rA rB : Reg) (offX : Int) (s : State) : Result :=
  branch offX (Cond.holds .ne (s.reg rA) (s.reg rB)) s

/-- `BRANCH_LT_U`, 47_control_flow.md R305. -/
def execBranchLtU (rA rB : Reg) (offX : Int) (s : State) : Result :=
  branch offX (Cond.holds .ltU (s.reg rA) (s.reg rB)) s

/-- `BRANCH_LT_S`, 47_control_flow.md R306. -/
def execBranchLtS (rA rB : Reg) (offX : Int) (s : State) : Result :=
  branch offX (Cond.holds .ltS (s.reg rA) (s.reg rB)) s

/-- `BRANCH_GE_U`, 47_control_flow.md R307. -/
def execBranchGeU (rA rB : Reg) (offX : Int) (s : State) : Result :=
  branch offX (Cond.holds .geU (s.reg rA) (s.reg rB)) s

/-- `BRANCH_GE_S`, 47_control_flow.md R308. -/
def execBranchGeS (rA rB : Reg) (offX : Int) (s : State) : Result :=
  branch offX (Cond.holds .geS (s.reg rA) (s.reg rB)) s

/-- `BRANCH_EQ_IMM`, 47_control_flow.md R309. -/
def execBranchEqImm (rA : Reg) (immX : Word) (offY : Int) (s : State) : Result :=
  branch offY (Cond.holds .eq (s.reg rA) immX) s

/-- `BRANCH_NE_IMM`, 47_control_flow.md R310. -/
def execBranchNeImm (rA : Reg) (immX : Word) (offY : Int) (s : State) : Result :=
  branch offY (Cond.holds .ne (s.reg rA) immX) s

/-- `BRANCH_LT_U_IMM`, 47_control_flow.md R311. -/
def execBranchLtUImm (rA : Reg) (immX : Word) (offY : Int) (s : State) : Result :=
  branch offY (Cond.holds .ltU (s.reg rA) immX) s

/-- `BRANCH_LE_U_IMM`, 47_control_flow.md R312. -/
def execBranchLeUImm (rA : Reg) (immX : Word) (offY : Int) (s : State) : Result :=
  branch offY (Cond.holds .leU (s.reg rA) immX) s

/-- `BRANCH_GE_U_IMM`, 47_control_flow.md R313. -/
def execBranchGeUImm (rA : Reg) (immX : Word) (offY : Int) (s : State) : Result :=
  branch offY (Cond.holds .geU (s.reg rA) immX) s

/-- `BRANCH_GT_U_IMM`, 47_control_flow.md R314. -/
def execBranchGtUImm (rA : Reg) (immX : Word) (offY : Int) (s : State) : Result :=
  branch offY (Cond.holds .gtU (s.reg rA) immX) s

/-- `BRANCH_LT_S_IMM`, 47_control_flow.md R315. -/
def execBranchLtSImm (rA : Reg) (immX : Word) (offY : Int) (s : State) : Result :=
  branch offY (Cond.holds .ltS (s.reg rA) immX) s

/-- `BRANCH_LE_S_IMM`, 47_control_flow.md R316. -/
def execBranchLeSImm (rA : Reg) (immX : Word) (offY : Int) (s : State) : Result :=
  branch offY (Cond.holds .leS (s.reg rA) immX) s

/-- `BRANCH_GE_S_IMM`, 47_control_flow.md R317. -/
def execBranchGeSImm (rA : Reg) (immX : Word) (offY : Int) (s : State) : Result :=
  branch offY (Cond.holds .geS (s.reg rA) immX) s

/-- `BRANCH_GT_S_IMM`, 47_control_flow.md R318. -/
def execBranchGtSImm (rA : Reg) (immX : Word) (offY : Int) (s : State) : Result :=
  branch offY (Cond.holds .gtS (s.reg rA) immX) s

/-- `LOAD_IMM_JUMP`, 47_control_flow.md R319: the register is written before the target is checked. -/
def execLoadImmJump (rA : Reg) (immX : Word) (offY : Int) (s : State) : Result :=
  branch offY true (s.setReg rA immX)

/-- `JUMP_IND`, 47_control_flow.md R320. -/
def execJumpInd (rA : Reg) (immX : Word) (s : State) : Result :=
  djump (jumpAddr (s.reg rA) immX) s

/-- `LOAD_IMM_JUMP_IND`, 47_control_flow.md R321: the address is taken before the register is written, and the register stays written when the jump panics or halts. -/
def execLoadImmJumpInd (rA rB : Reg) (immX immY : Word) (s : State) : Result :=
  djump (jumpAddr (s.reg rB) immY) (s.setReg rA immX)

end Sys2Proof.Machine
end

