-- ==== Sys2Proof/Machine/Load.lean ====
section
/-! DEFINITION. The meanings of the load instructions (45_load.md); a failed access is PANIC with nothing written (R260). Sources are read before the destination is written. -/

namespace Sys2Proof.Machine

/-- `LOAD_U8`, 45_load.md R261. -/
def execLoadU8 (rA : Reg) (immX : Word) (s : State) : Result :=
  load rA (directAddr immX) 1 id s

/-- `LOAD_I8`, 45_load.md R262. -/
def execLoadI8 (rA : Reg) (immX : Word) (s : State) : Result :=
  load rA (directAddr immX) 1 (signExtendBytes 1) s

/-- `LOAD_U16`, 45_load.md R263. -/
def execLoadU16 (rA : Reg) (immX : Word) (s : State) : Result :=
  load rA (directAddr immX) 2 id s

/-- `LOAD_I16`, 45_load.md R264. -/
def execLoadI16 (rA : Reg) (immX : Word) (s : State) : Result :=
  load rA (directAddr immX) 2 (signExtendBytes 2) s

/-- `LOAD_U32`, 45_load.md R265. -/
def execLoadU32 (rA : Reg) (immX : Word) (s : State) : Result :=
  load rA (directAddr immX) 4 id s

/-- `LOAD_I32`, 45_load.md R266. -/
def execLoadI32 (rA : Reg) (immX : Word) (s : State) : Result :=
  load rA (directAddr immX) 4 (signExtendBytes 4) s

/-- `LOAD_U64`, 45_load.md R267. -/
def execLoadU64 (rA : Reg) (immX : Word) (s : State) : Result :=
  load rA (directAddr immX) 8 id s

/-- `LOAD_IND_U8`, 45_load.md R268. -/
def execLoadIndU8 (rA rB : Reg) (immX : Word) (s : State) : Result :=
  load rA (indirectAddr (s.reg rB) immX) 1 id s

/-- `LOAD_IND_I8`, 45_load.md R269. -/
def execLoadIndI8 (rA rB : Reg) (immX : Word) (s : State) : Result :=
  load rA (indirectAddr (s.reg rB) immX) 1 (signExtendBytes 1) s

/-- `LOAD_IND_U16`, 45_load.md R270. -/
def execLoadIndU16 (rA rB : Reg) (immX : Word) (s : State) : Result :=
  load rA (indirectAddr (s.reg rB) immX) 2 id s

/-- `LOAD_IND_I16`, 45_load.md R271. -/
def execLoadIndI16 (rA rB : Reg) (immX : Word) (s : State) : Result :=
  load rA (indirectAddr (s.reg rB) immX) 2 (signExtendBytes 2) s

/-- `LOAD_IND_U32`, 45_load.md R272. -/
def execLoadIndU32 (rA rB : Reg) (immX : Word) (s : State) : Result :=
  load rA (indirectAddr (s.reg rB) immX) 4 id s

/-- `LOAD_IND_I32`, 45_load.md R273. -/
def execLoadIndI32 (rA rB : Reg) (immX : Word) (s : State) : Result :=
  load rA (indirectAddr (s.reg rB) immX) 4 (signExtendBytes 4) s

/-- `LOAD_IND_U64`, 45_load.md R274. -/
def execLoadIndU64 (rA rB : Reg) (immX : Word) (s : State) : Result :=
  load rA (indirectAddr (s.reg rB) immX) 8 id s

end Sys2Proof.Machine
end

