-- ==== Sys2Proof/Machine/Math.lean ====
section
/-! DEFINITION. The meanings of the math instructions (40_math.md): wraparound, no flags, no traps (R150, R152). Sources are read before the destination is written. -/

namespace Sys2Proof.Machine

/-- `ADD_32`, 40_math.md R153. -/
def execAdd32 (rD rA rB : Reg) (s : State) : Result :=
  s.writeReg rD (add32 (s.reg rA) (s.reg rB))

/-- `ADD_64`, 40_math.md R154. -/
def execAdd64 (rD rA rB : Reg) (s : State) : Result :=
  s.writeReg rD (add64 (s.reg rA) (s.reg rB))

/-- `ADD_IMM_32`, 40_math.md R155. -/
def execAddImm32 (rA rB : Reg) (immX : Word) (s : State) : Result :=
  s.writeReg rA (add32 (s.reg rB) immX)

/-- `ADD_IMM_64`, 40_math.md R156. -/
def execAddImm64 (rA rB : Reg) (immX : Word) (s : State) : Result :=
  s.writeReg rA (add64 (s.reg rB) immX)

/-- `SUB_32`, 40_math.md R157. -/
def execSub32 (rD rA rB : Reg) (s : State) : Result :=
  s.writeReg rD (sub32 (s.reg rA) (s.reg rB))

/-- `SUB_64`, 40_math.md R158. -/
def execSub64 (rD rA rB : Reg) (s : State) : Result :=
  s.writeReg rD (sub64 (s.reg rA) (s.reg rB))

/-- `NEG_ADD_IMM_32`, 40_math.md R159. -/
def execNegAddImm32 (rA rB : Reg) (immX : Word) (s : State) : Result :=
  s.writeReg rA (sub32 immX (s.reg rB))

/-- `NEG_ADD_IMM_64`, 40_math.md R160. -/
def execNegAddImm64 (rA rB : Reg) (immX : Word) (s : State) : Result :=
  s.writeReg rA (sub64 immX (s.reg rB))

/-- `MUL_32`, 40_math.md R161. -/
def execMul32 (rD rA rB : Reg) (s : State) : Result :=
  s.writeReg rD (mul32 (s.reg rA) (s.reg rB))

/-- `MUL_64`, 40_math.md R162. -/
def execMul64 (rD rA rB : Reg) (s : State) : Result :=
  s.writeReg rD (mul64 (s.reg rA) (s.reg rB))

/-- `MUL_IMM_32`, 40_math.md R163. -/
def execMulImm32 (rA rB : Reg) (immX : Word) (s : State) : Result :=
  s.writeReg rA (mul32 (s.reg rB) immX)

/-- `MUL_IMM_64`, 40_math.md R164. -/
def execMulImm64 (rA rB : Reg) (immX : Word) (s : State) : Result :=
  s.writeReg rA (mul64 (s.reg rB) immX)

/-- `MUL_UPPER_S_S`, 40_math.md R165. -/
def execMulUpperSS (rD rA rB : Reg) (s : State) : Result :=
  s.writeReg rD (mulUpperSS (s.reg rA) (s.reg rB))

/-- `MUL_UPPER_U_U`, 40_math.md R166. -/
def execMulUpperUU (rD rA rB : Reg) (s : State) : Result :=
  s.writeReg rD (mulUpperUU (s.reg rA) (s.reg rB))

/-- `MUL_UPPER_S_U`, 40_math.md R167. -/
def execMulUpperSU (rD rA rB : Reg) (s : State) : Result :=
  s.writeReg rD (mulUpperSU (s.reg rA) (s.reg rB))

/-- `DIV_U_32`, 40_math.md R168. -/
def execDivU32 (rD rA rB : Reg) (s : State) : Result :=
  s.writeReg rD (divU32 (s.reg rA) (s.reg rB))

/-- `DIV_U_64`, 40_math.md R169. -/
def execDivU64 (rD rA rB : Reg) (s : State) : Result :=
  s.writeReg rD (divU64 (s.reg rA) (s.reg rB))

/-- `DIV_S_32`, 40_math.md R170. -/
def execDivS32 (rD rA rB : Reg) (s : State) : Result :=
  s.writeReg rD (divS32 (s.reg rA) (s.reg rB))

/-- `DIV_S_64`, 40_math.md R171. -/
def execDivS64 (rD rA rB : Reg) (s : State) : Result :=
  s.writeReg rD (divS64 (s.reg rA) (s.reg rB))

/-- `REM_U_32`, 40_math.md R172. -/
def execRemU32 (rD rA rB : Reg) (s : State) : Result :=
  s.writeReg rD (remU32 (s.reg rA) (s.reg rB))

/-- `REM_U_64`, 40_math.md R173. -/
def execRemU64 (rD rA rB : Reg) (s : State) : Result :=
  s.writeReg rD (remU64 (s.reg rA) (s.reg rB))

/-- `REM_S_32`, 40_math.md R174. -/
def execRemS32 (rD rA rB : Reg) (s : State) : Result :=
  s.writeReg rD (remS32 (s.reg rA) (s.reg rB))

/-- `REM_S_64`, 40_math.md R175. -/
def execRemS64 (rD rA rB : Reg) (s : State) : Result :=
  s.writeReg rD (remS64 (s.reg rA) (s.reg rB))

/-- `MAX`, 40_math.md R176. -/
def execMax (rD rA rB : Reg) (s : State) : Result :=
  s.writeReg rD (maxSigned (s.reg rA) (s.reg rB))

/-- `MAX_U`, 40_math.md R177. -/
def execMaxU (rD rA rB : Reg) (s : State) : Result :=
  s.writeReg rD (maxUnsigned (s.reg rA) (s.reg rB))

/-- `MIN`, 40_math.md R178. -/
def execMin (rD rA rB : Reg) (s : State) : Result :=
  s.writeReg rD (minSigned (s.reg rA) (s.reg rB))

/-- `MIN_U`, 40_math.md R179. -/
def execMinU (rD rA rB : Reg) (s : State) : Result :=
  s.writeReg rD (minUnsigned (s.reg rA) (s.reg rB))

end Sys2Proof.Machine
end

