-- ==== Sys2Proof/Machine/Move.lean ====
section
/-! DEFINITION. The meanings of the move instructions (44_move.md). Sources are read before the destination is written. -/

namespace Sys2Proof.Machine

/-- `MOVE_REG`, 44_move.md R251. -/
def execMoveReg (rD rA : Reg) (s : State) : Result :=
  s.writeReg rD (s.reg rA)

/-- `CMOV_IZ`, 44_move.md R252. -/
def execCmovIz (rD rA rB : Reg) (s : State) : Result :=
  if s.reg rB = 0 then s.writeReg rD (s.reg rA) else .next s.advance

/-- `CMOV_NZ`, 44_move.md R253. -/
def execCmovNz (rD rA rB : Reg) (s : State) : Result :=
  if s.reg rB ≠ 0 then s.writeReg rD (s.reg rA) else .next s.advance

/-- `CMOV_IZ_IMM`, 44_move.md R254. -/
def execCmovIzImm (rA rB : Reg) (immX : Word) (s : State) : Result :=
  if s.reg rB = 0 then s.writeReg rA immX else .next s.advance

/-- `CMOV_NZ_IMM`, 44_move.md R255. -/
def execCmovNzImm (rA rB : Reg) (immX : Word) (s : State) : Result :=
  if s.reg rB ≠ 0 then s.writeReg rA immX else .next s.advance

/-- `LOAD_IMM`, 44_move.md R256. -/
def execLoadImm (rA : Reg) (immX : Word) (s : State) : Result :=
  s.writeReg rA immX

/-- `LOAD_IMM_64`, 44_move.md R257. -/
def execLoadImm64 (rA : Reg) (immX : Word) (s : State) : Result :=
  s.writeReg rA immX

end Sys2Proof.Machine
end

