-- ==== Sys2Proof/Machine/Shift.lean ====
section
/-! DEFINITION. The meanings of the shift instructions (41_shift.md). Sources are read before the destination is written. -/

namespace Sys2Proof.Machine

/-- `SHLO_L_32`, 41_shift.md R191. -/
def execShloL32 (rD rA rB : Reg) (s : State) : Result :=
  s.writeReg rD (shloL32 (s.reg rA) (s.reg rB))

/-- `SHLO_L_64`, 41_shift.md R192. -/
def execShloL64 (rD rA rB : Reg) (s : State) : Result :=
  s.writeReg rD (shloL64 (s.reg rA) (s.reg rB))

/-- `SHLO_R_32`, 41_shift.md R193. -/
def execShloR32 (rD rA rB : Reg) (s : State) : Result :=
  s.writeReg rD (shloR32 (s.reg rA) (s.reg rB))

/-- `SHLO_R_64`, 41_shift.md R194. -/
def execShloR64 (rD rA rB : Reg) (s : State) : Result :=
  s.writeReg rD (shloR64 (s.reg rA) (s.reg rB))

/-- `SHAR_R_32`, 41_shift.md R195. -/
def execSharR32 (rD rA rB : Reg) (s : State) : Result :=
  s.writeReg rD (sharR32 (s.reg rA) (s.reg rB))

/-- `SHAR_R_64`, 41_shift.md R196. -/
def execSharR64 (rD rA rB : Reg) (s : State) : Result :=
  s.writeReg rD (sharR64 (s.reg rA) (s.reg rB))

/-- `SHLO_L_IMM_32`, 41_shift.md R197. -/
def execShloLImm32 (rA rB : Reg) (immX : Word) (s : State) : Result :=
  s.writeReg rA (shloL32 (s.reg rB) immX)

/-- `SHLO_L_IMM_64`, 41_shift.md R198. -/
def execShloLImm64 (rA rB : Reg) (immX : Word) (s : State) : Result :=
  s.writeReg rA (shloL64 (s.reg rB) immX)

/-- `SHLO_R_IMM_32`, 41_shift.md R199. -/
def execShloRImm32 (rA rB : Reg) (immX : Word) (s : State) : Result :=
  s.writeReg rA (shloR32 (s.reg rB) immX)

/-- `SHLO_R_IMM_64`, 41_shift.md R200. -/
def execShloRImm64 (rA rB : Reg) (immX : Word) (s : State) : Result :=
  s.writeReg rA (shloR64 (s.reg rB) immX)

/-- `SHAR_R_IMM_32`, 41_shift.md R201. -/
def execSharRImm32 (rA rB : Reg) (immX : Word) (s : State) : Result :=
  s.writeReg rA (sharR32 (s.reg rB) immX)

/-- `SHAR_R_IMM_64`, 41_shift.md R202. -/
def execSharRImm64 (rA rB : Reg) (immX : Word) (s : State) : Result :=
  s.writeReg rA (sharR64 (s.reg rB) immX)

/-- `SHLO_L_IMM_ALT_32`, 41_shift.md R203. -/
def execShloLImmAlt32 (rA rB : Reg) (immX : Word) (s : State) : Result :=
  s.writeReg rA (shloL32 immX (s.reg rB))

/-- `SHLO_L_IMM_ALT_64`, 41_shift.md R204. -/
def execShloLImmAlt64 (rA rB : Reg) (immX : Word) (s : State) : Result :=
  s.writeReg rA (shloL64 immX (s.reg rB))

/-- `SHLO_R_IMM_ALT_32`, 41_shift.md R205. -/
def execShloRImmAlt32 (rA rB : Reg) (immX : Word) (s : State) : Result :=
  s.writeReg rA (shloR32 immX (s.reg rB))

/-- `SHLO_R_IMM_ALT_64`, 41_shift.md R206. -/
def execShloRImmAlt64 (rA rB : Reg) (immX : Word) (s : State) : Result :=
  s.writeReg rA (shloR64 immX (s.reg rB))

/-- `SHAR_R_IMM_ALT_32`, 41_shift.md R207. -/
def execSharRImmAlt32 (rA rB : Reg) (immX : Word) (s : State) : Result :=
  s.writeReg rA (sharR32 immX (s.reg rB))

/-- `SHAR_R_IMM_ALT_64`, 41_shift.md R208. -/
def execSharRImmAlt64 (rA rB : Reg) (immX : Word) (s : State) : Result :=
  s.writeReg rA (sharR64 immX (s.reg rB))

end Sys2Proof.Machine
end

