-- ==== Sys2Proof/Machine/Store.lean ====
section
/-! DEFINITION. The meanings of the store instructions (46_store.md); a failed access is PANIC with nothing written (R280). Sources are read before the destination is written. -/

namespace Sys2Proof.Machine

/-- `STORE_U8`, 46_store.md R281. -/
def execStoreU8 (rA : Reg) (immX : Word) (s : State) : Result :=
  store (directAddr immX) 1 (s.reg rA) s

/-- `STORE_U16`, 46_store.md R282. -/
def execStoreU16 (rA : Reg) (immX : Word) (s : State) : Result :=
  store (directAddr immX) 2 (s.reg rA) s

/-- `STORE_U32`, 46_store.md R283. -/
def execStoreU32 (rA : Reg) (immX : Word) (s : State) : Result :=
  store (directAddr immX) 4 (s.reg rA) s

/-- `STORE_U64`, 46_store.md R284. -/
def execStoreU64 (rA : Reg) (immX : Word) (s : State) : Result :=
  store (directAddr immX) 8 (s.reg rA) s

/-- `STORE_IND_U8`, 46_store.md R285. -/
def execStoreIndU8 (rA rB : Reg) (immX : Word) (s : State) : Result :=
  store (indirectAddr (s.reg rB) immX) 1 (s.reg rA) s

/-- `STORE_IND_U16`, 46_store.md R286. -/
def execStoreIndU16 (rA rB : Reg) (immX : Word) (s : State) : Result :=
  store (indirectAddr (s.reg rB) immX) 2 (s.reg rA) s

/-- `STORE_IND_U32`, 46_store.md R287. -/
def execStoreIndU32 (rA rB : Reg) (immX : Word) (s : State) : Result :=
  store (indirectAddr (s.reg rB) immX) 4 (s.reg rA) s

/-- `STORE_IND_U64`, 46_store.md R288. -/
def execStoreIndU64 (rA rB : Reg) (immX : Word) (s : State) : Result :=
  store (indirectAddr (s.reg rB) immX) 8 (s.reg rA) s

/-- `STORE_IMM_U8`, 46_store.md R289. -/
def execStoreImmU8 (immX immY : Word) (s : State) : Result :=
  store (directAddr immX) 1 immY s

/-- `STORE_IMM_U16`, 46_store.md R290. -/
def execStoreImmU16 (immX immY : Word) (s : State) : Result :=
  store (directAddr immX) 2 immY s

/-- `STORE_IMM_U32`, 46_store.md R291. -/
def execStoreImmU32 (immX immY : Word) (s : State) : Result :=
  store (directAddr immX) 4 immY s

/-- `STORE_IMM_U64`, 46_store.md R292. -/
def execStoreImmU64 (immX immY : Word) (s : State) : Result :=
  store (directAddr immX) 8 immY s

/-- `STORE_IMM_IND_U8`, 46_store.md R293. -/
def execStoreImmIndU8 (rA : Reg) (immX immY : Word) (s : State) : Result :=
  store (indirectAddr (s.reg rA) immX) 1 immY s

/-- `STORE_IMM_IND_U16`, 46_store.md R294. -/
def execStoreImmIndU16 (rA : Reg) (immX immY : Word) (s : State) : Result :=
  store (indirectAddr (s.reg rA) immX) 2 immY s

/-- `STORE_IMM_IND_U32`, 46_store.md R295. -/
def execStoreImmIndU32 (rA : Reg) (immX immY : Word) (s : State) : Result :=
  store (indirectAddr (s.reg rA) immX) 4 immY s

/-- `STORE_IMM_IND_U64`, 46_store.md R296. -/
def execStoreImmIndU64 (rA : Reg) (immX immY : Word) (s : State) : Result :=
  store (indirectAddr (s.reg rA) immX) 8 immY s

end Sys2Proof.Machine
end

