-- ==== Sys2Proof/Machine/System.lean ====
section
/-! DEFINITION. The meanings of TRAP, FALLTHROUGH and the host call (48_system.md). Sources are read before the destination is written. -/

namespace Sys2Proof.Machine

/-- `TRAP`, 48_system.md R330: PANIC. -/
def execTrap (s : State) : Result :=
  raise .panic s

/-- `FALLTHROUGH`, 48_system.md R331: no effect but the advance. -/
def execFallthrough (s : State) : Result :=
  .next s.advance

/-- `ECALLI`, 48_system.md R332: suspend at the host call whose index is the immediate, with the resume offset recorded. -/
def execEcalli (immX : Word) (s : State) : Result :=
  raise (.host immX) s

end Sys2Proof.Machine
end

