-- ==== Sys2Proof/Machine/Dispatch.lean ====
section
/-! DEFINITION. Dispatch: one arm for each instruction, each a direct call of its meaning (30_encoding.md R124). -/

namespace Sys2Proof.Machine

def exec (i : Instr) (s : State) : Host.Outcome State Fault Refusal :=
  match i with
  | .trap => Sys2Proof.Machine.execTrap s
  | .fallthrough => Sys2Proof.Machine.execFallthrough s
  | .ecalli immX => Sys2Proof.Machine.execEcalli immX s
  | .loadImm64 rA immX => Sys2Proof.Machine.execLoadImm64 rA immX s
  | .storeImmU8 immX immY => Sys2Proof.Machine.execStoreImmU8 immX immY s
  | .storeImmU16 immX immY => Sys2Proof.Machine.execStoreImmU16 immX immY s
  | .storeImmU32 immX immY => Sys2Proof.Machine.execStoreImmU32 immX immY s
  | .storeImmU64 immX immY => Sys2Proof.Machine.execStoreImmU64 immX immY s
  | .jump offX => Sys2Proof.Machine.execJump offX s
  | .jumpInd rA immX => Sys2Proof.Machine.execJumpInd rA immX s
  | .loadImm rA immX => Sys2Proof.Machine.execLoadImm rA immX s
  | .loadU8 rA immX => Sys2Proof.Machine.execLoadU8 rA immX s
  | .loadI8 rA immX => Sys2Proof.Machine.execLoadI8 rA immX s
  | .loadU16 rA immX => Sys2Proof.Machine.execLoadU16 rA immX s
  | .loadI16 rA immX => Sys2Proof.Machine.execLoadI16 rA immX s
  | .loadU32 rA immX => Sys2Proof.Machine.execLoadU32 rA immX s
  | .loadI32 rA immX => Sys2Proof.Machine.execLoadI32 rA immX s
  | .loadU64 rA immX => Sys2Proof.Machine.execLoadU64 rA immX s
  | .storeU8 rA immX => Sys2Proof.Machine.execStoreU8 rA immX s
  | .storeU16 rA immX => Sys2Proof.Machine.execStoreU16 rA immX s
  | .storeU32 rA immX => Sys2Proof.Machine.execStoreU32 rA immX s
  | .storeU64 rA immX => Sys2Proof.Machine.execStoreU64 rA immX s
  | .storeImmIndU8 rA immX immY => Sys2Proof.Machine.execStoreImmIndU8 rA immX immY s
  | .storeImmIndU16 rA immX immY => Sys2Proof.Machine.execStoreImmIndU16 rA immX immY s
  | .storeImmIndU32 rA immX immY => Sys2Proof.Machine.execStoreImmIndU32 rA immX immY s
  | .storeImmIndU64 rA immX immY => Sys2Proof.Machine.execStoreImmIndU64 rA immX immY s
  | .loadImmJump rA immX offY => Sys2Proof.Machine.execLoadImmJump rA immX offY s
  | .branchEqImm rA immX offY => Sys2Proof.Machine.execBranchEqImm rA immX offY s
  | .branchNeImm rA immX offY => Sys2Proof.Machine.execBranchNeImm rA immX offY s
  | .branchLtUImm rA immX offY => Sys2Proof.Machine.execBranchLtUImm rA immX offY s
  | .branchLeUImm rA immX offY => Sys2Proof.Machine.execBranchLeUImm rA immX offY s
  | .branchGeUImm rA immX offY => Sys2Proof.Machine.execBranchGeUImm rA immX offY s
  | .branchGtUImm rA immX offY => Sys2Proof.Machine.execBranchGtUImm rA immX offY s
  | .branchLtSImm rA immX offY => Sys2Proof.Machine.execBranchLtSImm rA immX offY s
  | .branchLeSImm rA immX offY => Sys2Proof.Machine.execBranchLeSImm rA immX offY s
  | .branchGeSImm rA immX offY => Sys2Proof.Machine.execBranchGeSImm rA immX offY s
  | .branchGtSImm rA immX offY => Sys2Proof.Machine.execBranchGtSImm rA immX offY s
  | .moveReg rD rA => Sys2Proof.Machine.execMoveReg rD rA s
  | .countSetBits64 rD rA => Sys2Proof.Machine.execCountSetBits64 rD rA s
  | .countSetBits32 rD rA => Sys2Proof.Machine.execCountSetBits32 rD rA s
  | .leadingZeroBits64 rD rA => Sys2Proof.Machine.execLeadingZeroBits64 rD rA s
  | .leadingZeroBits32 rD rA => Sys2Proof.Machine.execLeadingZeroBits32 rD rA s
  | .trailingZeroBits64 rD rA => Sys2Proof.Machine.execTrailingZeroBits64 rD rA s
  | .trailingZeroBits32 rD rA => Sys2Proof.Machine.execTrailingZeroBits32 rD rA s
  | .signExtend8 rD rA => Sys2Proof.Machine.execSignExtend8 rD rA s
  | .signExtend16 rD rA => Sys2Proof.Machine.execSignExtend16 rD rA s
  | .zeroExtend16 rD rA => Sys2Proof.Machine.execZeroExtend16 rD rA s
  | .reverseBytes rD rA => Sys2Proof.Machine.execReverseBytes rD rA s
  | .storeIndU8 rA rB immX => Sys2Proof.Machine.execStoreIndU8 rA rB immX s
  | .storeIndU16 rA rB immX => Sys2Proof.Machine.execStoreIndU16 rA rB immX s
  | .storeIndU32 rA rB immX => Sys2Proof.Machine.execStoreIndU32 rA rB immX s
  | .storeIndU64 rA rB immX => Sys2Proof.Machine.execStoreIndU64 rA rB immX s
  | .loadIndU8 rA rB immX => Sys2Proof.Machine.execLoadIndU8 rA rB immX s
  | .loadIndI8 rA rB immX => Sys2Proof.Machine.execLoadIndI8 rA rB immX s
  | .loadIndU16 rA rB immX => Sys2Proof.Machine.execLoadIndU16 rA rB immX s
  | .loadIndI16 rA rB immX => Sys2Proof.Machine.execLoadIndI16 rA rB immX s
  | .loadIndU32 rA rB immX => Sys2Proof.Machine.execLoadIndU32 rA rB immX s
  | .loadIndI32 rA rB immX => Sys2Proof.Machine.execLoadIndI32 rA rB immX s
  | .loadIndU64 rA rB immX => Sys2Proof.Machine.execLoadIndU64 rA rB immX s
  | .addImm32 rA rB immX => Sys2Proof.Machine.execAddImm32 rA rB immX s
  | .andImm rA rB immX => Sys2Proof.Machine.execAndImm rA rB immX s
  | .xorImm rA rB immX => Sys2Proof.Machine.execXorImm rA rB immX s
  | .orImm rA rB immX => Sys2Proof.Machine.execOrImm rA rB immX s
  | .mulImm32 rA rB immX => Sys2Proof.Machine.execMulImm32 rA rB immX s
  | .setLtUImm rA rB immX => Sys2Proof.Machine.execSetLtUImm rA rB immX s
  | .setLtSImm rA rB immX => Sys2Proof.Machine.execSetLtSImm rA rB immX s
  | .shloLImm32 rA rB immX => Sys2Proof.Machine.execShloLImm32 rA rB immX s
  | .shloRImm32 rA rB immX => Sys2Proof.Machine.execShloRImm32 rA rB immX s
  | .sharRImm32 rA rB immX => Sys2Proof.Machine.execSharRImm32 rA rB immX s
  | .negAddImm32 rA rB immX => Sys2Proof.Machine.execNegAddImm32 rA rB immX s
  | .setGtUImm rA rB immX => Sys2Proof.Machine.execSetGtUImm rA rB immX s
  | .setGtSImm rA rB immX => Sys2Proof.Machine.execSetGtSImm rA rB immX s
  | .shloLImmAlt32 rA rB immX => Sys2Proof.Machine.execShloLImmAlt32 rA rB immX s
  | .shloRImmAlt32 rA rB immX => Sys2Proof.Machine.execShloRImmAlt32 rA rB immX s
  | .sharRImmAlt32 rA rB immX => Sys2Proof.Machine.execSharRImmAlt32 rA rB immX s
  | .cmovIzImm rA rB immX => Sys2Proof.Machine.execCmovIzImm rA rB immX s
  | .cmovNzImm rA rB immX => Sys2Proof.Machine.execCmovNzImm rA rB immX s
  | .addImm64 rA rB immX => Sys2Proof.Machine.execAddImm64 rA rB immX s
  | .mulImm64 rA rB immX => Sys2Proof.Machine.execMulImm64 rA rB immX s
  | .shloLImm64 rA rB immX => Sys2Proof.Machine.execShloLImm64 rA rB immX s
  | .shloRImm64 rA rB immX => Sys2Proof.Machine.execShloRImm64 rA rB immX s
  | .sharRImm64 rA rB immX => Sys2Proof.Machine.execSharRImm64 rA rB immX s
  | .negAddImm64 rA rB immX => Sys2Proof.Machine.execNegAddImm64 rA rB immX s
  | .shloLImmAlt64 rA rB immX => Sys2Proof.Machine.execShloLImmAlt64 rA rB immX s
  | .shloRImmAlt64 rA rB immX => Sys2Proof.Machine.execShloRImmAlt64 rA rB immX s
  | .sharRImmAlt64 rA rB immX => Sys2Proof.Machine.execSharRImmAlt64 rA rB immX s
  | .rotR64Imm rA rB immX => Sys2Proof.Machine.execRotR64Imm rA rB immX s
  | .rotR64ImmAlt rA rB immX => Sys2Proof.Machine.execRotR64ImmAlt rA rB immX s
  | .rotR32Imm rA rB immX => Sys2Proof.Machine.execRotR32Imm rA rB immX s
  | .rotR32ImmAlt rA rB immX => Sys2Proof.Machine.execRotR32ImmAlt rA rB immX s
  | .branchEq rA rB offX => Sys2Proof.Machine.execBranchEq rA rB offX s
  | .branchNe rA rB offX => Sys2Proof.Machine.execBranchNe rA rB offX s
  | .branchLtU rA rB offX => Sys2Proof.Machine.execBranchLtU rA rB offX s
  | .branchLtS rA rB offX => Sys2Proof.Machine.execBranchLtS rA rB offX s
  | .branchGeU rA rB offX => Sys2Proof.Machine.execBranchGeU rA rB offX s
  | .branchGeS rA rB offX => Sys2Proof.Machine.execBranchGeS rA rB offX s
  | .loadImmJumpInd rA rB immX immY => Sys2Proof.Machine.execLoadImmJumpInd rA rB immX immY s
  | .add32 rD rA rB => Sys2Proof.Machine.execAdd32 rD rA rB s
  | .sub32 rD rA rB => Sys2Proof.Machine.execSub32 rD rA rB s
  | .mul32 rD rA rB => Sys2Proof.Machine.execMul32 rD rA rB s
  | .divU32 rD rA rB => Sys2Proof.Machine.execDivU32 rD rA rB s
  | .divS32 rD rA rB => Sys2Proof.Machine.execDivS32 rD rA rB s
  | .remU32 rD rA rB => Sys2Proof.Machine.execRemU32 rD rA rB s
  | .remS32 rD rA rB => Sys2Proof.Machine.execRemS32 rD rA rB s
  | .shloL32 rD rA rB => Sys2Proof.Machine.execShloL32 rD rA rB s
  | .shloR32 rD rA rB => Sys2Proof.Machine.execShloR32 rD rA rB s
  | .sharR32 rD rA rB => Sys2Proof.Machine.execSharR32 rD rA rB s
  | .add64 rD rA rB => Sys2Proof.Machine.execAdd64 rD rA rB s
  | .sub64 rD rA rB => Sys2Proof.Machine.execSub64 rD rA rB s
  | .mul64 rD rA rB => Sys2Proof.Machine.execMul64 rD rA rB s
  | .divU64 rD rA rB => Sys2Proof.Machine.execDivU64 rD rA rB s
  | .divS64 rD rA rB => Sys2Proof.Machine.execDivS64 rD rA rB s
  | .remU64 rD rA rB => Sys2Proof.Machine.execRemU64 rD rA rB s
  | .remS64 rD rA rB => Sys2Proof.Machine.execRemS64 rD rA rB s
  | .shloL64 rD rA rB => Sys2Proof.Machine.execShloL64 rD rA rB s
  | .shloR64 rD rA rB => Sys2Proof.Machine.execShloR64 rD rA rB s
  | .sharR64 rD rA rB => Sys2Proof.Machine.execSharR64 rD rA rB s
  | .and rD rA rB => Sys2Proof.Machine.execAnd rD rA rB s
  | .xor rD rA rB => Sys2Proof.Machine.execXor rD rA rB s
  | .or rD rA rB => Sys2Proof.Machine.execOr rD rA rB s
  | .mulUpperSS rD rA rB => Sys2Proof.Machine.execMulUpperSS rD rA rB s
  | .mulUpperUU rD rA rB => Sys2Proof.Machine.execMulUpperUU rD rA rB s
  | .mulUpperSU rD rA rB => Sys2Proof.Machine.execMulUpperSU rD rA rB s
  | .setLtU rD rA rB => Sys2Proof.Machine.execSetLtU rD rA rB s
  | .setLtS rD rA rB => Sys2Proof.Machine.execSetLtS rD rA rB s
  | .cmovIz rD rA rB => Sys2Proof.Machine.execCmovIz rD rA rB s
  | .cmovNz rD rA rB => Sys2Proof.Machine.execCmovNz rD rA rB s
  | .rotL64 rD rA rB => Sys2Proof.Machine.execRotL64 rD rA rB s
  | .rotL32 rD rA rB => Sys2Proof.Machine.execRotL32 rD rA rB s
  | .rotR64 rD rA rB => Sys2Proof.Machine.execRotR64 rD rA rB s
  | .rotR32 rD rA rB => Sys2Proof.Machine.execRotR32 rD rA rB s
  | .andInv rD rA rB => Sys2Proof.Machine.execAndInv rD rA rB s
  | .orInv rD rA rB => Sys2Proof.Machine.execOrInv rD rA rB s
  | .xnor rD rA rB => Sys2Proof.Machine.execXnor rD rA rB s
  | .max rD rA rB => Sys2Proof.Machine.execMax rD rA rB s
  | .maxU rD rA rB => Sys2Proof.Machine.execMaxU rD rA rB s
  | .min rD rA rB => Sys2Proof.Machine.execMin rD rA rB s
  | .minU rD rA rB => Sys2Proof.Machine.execMinU rD rA rB s

end Sys2Proof.Machine
end

