-- ==== Sys2Proof/Machine/Step.lean ====
section
/-! DEFINITION. The step, `nextStep()` of 60_exceptions.md R341, and where an instruction is placed for it. -/

namespace Sys2Proof.Machine

/-- One call of `nextStep()` (60_exceptions.md R341). -/
def step (s : State) : Host.Outcome State Fault Refusal := nextStep exec s

/-- The state with one table word's instruction stored where the next step fetches: the image holds it at that
offset, marked as one instruction, the basic-block map is the image's, the instance is ready and has the gas
for it. It stands for the host's `reset` with that program (log 8). -/
def State.withFetchWord (s : State) (nbits w : Nat) : State :=
  let placed := s.ready.loadImage (placeWord s.image s.fetchPc.toNat nbits w)
  placed.withGasFor (fetchCost (resume placed))

end Sys2Proof.Machine
end

