-- ==== Sys2Proof/Machine/Builder.lean ====
section
/-! DEFINITION. The memory builder (20_memory.md R78) and the range types (R71). -/

namespace Sys2Proof.Machine

/-! ### Ranges -/

/-- A half-open byte range `[start, stop)` that may wrap past the top (20_memory.md R71). It holds its length, since
`start = stop` does not tell the empty range from the whole space, and any length: DESIGN CHOICE, log 22. -/
structure MemoryRange where
  start : BitVec 32
  length : Nat
deriving DecidableEq, Repr

/-- `end = (start + length) mod 2^32`. -/
def MemoryRange.stop (r : MemoryRange) : BitVec 32 := r.start + BitVec.ofNat 32 r.length

/-- The range crosses the address-space boundary. -/
def MemoryRange.wraps (r : MemoryRange) : Bool := decide (r.stop.toNat < r.start.toNat)

/-- The pages of the range in order, page 0 after the last page, up to the page of the last byte (20_memory.md R71).
DESIGN CHOICE (log 22), R71 gives only `end`: no page for length 0, every page for length 2^32, pages repeated for a
greater length; and a range of any length whose last byte comes back to its own first page (start 4095, length
2^32 - 1) lists every page and the first again at the end. -/
def MemoryRange.pages (r : MemoryRange) : List Nat :=
  if r.length = 0 then []
  else (List.range ((r.start.toNat % config.pageSize + r.length - 1) / config.pageSize + 1)).map fun j =>
    (r.start.toNat / config.pageSize + j) % maxPages

/-! ### The builder -/

/-- A builder that has not been finalized. Before any call every page is Absent. -/
structure Builder where
  mem : Memory := {}
deriving DecidableEq, Repr

/-- The pages of `[start, stop)`; none for an empty range. -/
def pagesBetween (start stop : Nat) : List Nat := if start < stop then pagesOf start (stop - start) else []

/-- Every page of `[start, stop)` is still Absent: only listed pages need a look. -/
def Builder.unassigned (b : Builder) (start stop : Nat) : Bool :=
  b.mem.pages.all fun x =>
    !(decide (start < stop) && decide (start / config.pageSize ≤ x.1) && decide (x.1 ≤ (stop - 1) / config.pageSize)) ||
      b.mem.pageState x.1 == .absent

/-- Give every page of a list the state. -/
def assignPages (st : PageState) (m : Memory) (ps : List Nat) : Memory :=
  { m with pages := ps.foldl (fun l p => sparseSet .absent l p st) m.pages }

/-- The requirements of a page call (20_memory.md R78). -/
def Builder.accepts (b : Builder) (start stop : Nat) (data : List Byte) : Bool :=
  start % config.pageSize == 0 && stop % config.pageSize == 0 && decide (start < stop) && decide (stop ≤ memorySize) &&
    decide (data.length ≤ stop - start) && b.unassigned start stop

/-- The common part of the two page calls: the state for every page of the range, `data` then zeros. -/
def Builder.setPages (st : PageState) (start stop : Nat) (data : List Byte) (b : Builder) :
    Except Refusal Builder :=
  if b.accepts start stop data then
    .ok { mem := (assignPages st b.mem (pagesBetween start stop)).setBytes start data }
  else .error .builderMisuse

def Builder.setReadablePages : Nat → Nat → List Byte → Builder → Except Refusal Builder :=
  Builder.setPages .readable

def Builder.setWriteablePages : Nat → Nat → List Byte → Builder → Except Refusal Builder :=
  Builder.setPages .writable

/-- `finalize(heapStart, heapEnd)`: records the heap values; no page of the heap range may be assigned. The
builder is gone after it, so no further call is possible. -/
def Builder.finalize (heapStart heapEnd : Nat) (b : Builder) : Except Refusal Memory :=
  if b.unassigned heapStart heapEnd then
    .ok { b.mem with heapStart := heapStart, heapEnd := heapEnd, sbrkIndex := heapStart }
  else .error .builderMisuse

end Sys2Proof.Machine
end

