-- ==== Sys2Proof/Machine/Deblob.lean ====
section
/-! DEFINITION. The default program container (93_implementation_defined.md G14). The parser is an open parameter
of reset (30_encoding.md R133); no other definition of the model depends on this one. -/

namespace Sys2Proof.Machine

/-- The first `n` bytes and the rest; none if there are fewer. -/
def takeBytes (n : Nat) (bs : List Byte) : Option (List Byte × List Byte) :=
  if bs.length < n then none else some (bs.take n, bs.drop n)

/-- How many bytes follow the first byte of `E(v)`: 0 below 128, 8 for 255, else the `l` with the first byte in
`[2^8 - 2^(8-l), 2^8 - 2^(7-l))`. -/
def natTail (b : Nat) : Nat := ([0, 1, 2, 3, 4, 5, 6, 7].find? fun l => b < 256 - 2 ^ (7 - l)).getD 8

/-- Read the protocol's natural-number encoding `E(v)` (G14). A longer form than the shortest is read as the
number it stands for (log 9). -/
def takeNat (bs : List Byte) : Option (Nat × List Byte) :=
  match bs with
  | [] => none
  | b :: rest =>
    let l := natTail b.toNat
    (takeBytes l rest).map fun x =>
      (if l = 8 then leValue x.1 else (b.toNat - (256 - 2 ^ (8 - l))) * 2 ^ (8 * l) + leValue x.1, x.2)

/-- The mask bits, least significant first in each byte. -/
def maskBits (n : Nat) (bs : List Byte) : List Bool :=
  (List.range n).map fun i => (byteAt bs (i / 8)).getLsbD (i % 8)

/-- The jump-table entries of `z` bytes each, little-endian. -/
def tableEntries (n z : Nat) (bs : List Byte) : List Nat :=
  (List.range n).map fun m => leValue (bytesAt bs (m * z) z)

/-- `E(|J|) ++ E_1(z) ++ E(|c|) ++ J ++ c ++ m` (G14): none when the blob is shorter than it declares, has bytes
left over, or `z` is above 8. -/
def defaultDeblob (blob : List Byte) : Option Image := do
  let (nJ, r) ← takeNat blob
  let (z, r) ← takeBytes 1 r
  let z := leValue z
  if 8 < z then none
  let (nC, r) ← takeNat r
  let (table, r) ← takeBytes (nJ * z) r
  let (code, r) ← takeBytes nC r
  let (mask, r) ← takeBytes ((nC + 7) / 8) r
  if r ≠ [] then none
  some { code := code, mask := maskBits nC mask, jumpTable := tableEntries nJ z table }

end Sys2Proof.Machine
end

