-- ==== Sys2Proof/Machine/HostSurface.lean ====
section
/-! DEFINITION. The public surface (60_exceptions.md R366): what the host may do between steps. A setup error is
a refusal and the typed error of a memory access a fault; in both the instance keeps its state (log 11). -/

namespace Sys2Proof.Machine

/-- Any operation but reset and destroy is refused on an Uninitialized instance (70_reset_and_hazards.md R383). -/
def State.guarded {α : Type} (s : State) (a : Except Refusal α) : Except Refusal α :=
  match s.life with
  | .uninitialized => .error .uninitialized
  | .initialized => a

/-- The next state of an operation that may be refused. -/
def hostAnswer (r : Except Refusal State) : Result :=
  match r with
  | .ok s => .next s
  | .error e => .refused e

/-! ### A new instance, reset and destroy -/

/-- A newly made instance (10_state.md R29, 70_reset_and_hazards.md R383): Uninitialized, with no defined field but
its parameters, so the caller supplies the others as `rest` (log 10). -/
def newInstance (params : Params) (rest : State) : State := { rest with params := params, life := .uninitialized }

/-- What reset leaves unspecified (10_state.md R37): the caller of `hostReset` supplies it, so nothing is known of
it. -/
structure Unspecified where
  resumePc : CodeAddr := 0
  heapStart : Nat := 0
  heapEnd : Nat := 0
  sbrkIndex : Nat := 0
deriving DecidableEq, Repr

/-- `reset` on an already decoded program (70_reset_and_hazards.md R380, R382, R386): a malformed image is refused,
the omitted registers are 0, the omitted memory has every page Absent. -/
def hostReset (p : Image) (pc : CodeAddr) (gas : Gas) (regs : Option (Vector Word 13))
    (mem : Option Memory) (u : Unspecified) (s : State) : Result :=
  if p.wf then
    .next
      { params := s.params
        life := .initialized
        status := .ok
        pc := pc
        gas := gas
        regs := regs.getD (Vector.replicate 13 0)
        resumePc := u.resumePc
        mem := mem.getD { heapStart := u.heapStart, heapEnd := u.heapEnd, sbrkIndex := u.sbrkIndex }
        image := p
        blocks := blockMap p }
  else .refused .malformedImage

/-- `reset` on a container (70_reset_and_hazards.md R380): `deblob` is the open parser of 30_encoding.md R133. -/
def hostResetBlob (deblob : List Byte → Option Image) (code : List Byte) (pc : CodeAddr) (gas : Gas)
    (regs : Option (Vector Word 13)) (mem : Option Memory) (u : Unspecified) (s : State) : Result :=
  match deblob code with
  | none => .refused .malformedImage
  | some p => hostReset p pc gas regs mem u s

/-- `destroy()` (70_reset_and_hazards.md R384): every field but the lifecycle flag becomes unspecified, as in a newly
made instance (10_state.md R29); the caller supplies them as `rest` (log 10). -/
def destroy (rest s : State) : State := newInstance s.params rest

/-! ### Stepping -/

/-- `runProgram()` (60_exceptions.md R342): steps, at least one, until the status is not OK; `none` when `fuel` steps
did not suffice (log 5). -/
def runProgram : Nat → State → Option Result
  | 0, _ => none
  | fuel + 1, s =>
    match step s with
    | .next t => if t.status = .ok then runProgram fuel t else some (.next t)
    | r => some r

/-! ### Getters (60_exceptions.md R369) -/

def getStatus (s : State) : Except Refusal Status := s.guarded (.ok s.status)
def getGas (s : State) : Except Refusal Int := s.guarded (.ok s.gas.toInt)
def getPC (s : State) : Except Refusal CodeAddr := s.guarded (.ok s.pc)

/-! ### Register accessors (10_state.md R22, R23) -/

/-- An accessor's register: an index above 12 is a setup error (60_exceptions.md R370 (e)). -/
def State.withReg {α : Type} (s : State) (i : Nat) (f : Reg → Except Refusal α) : Except Refusal α :=
  s.guarded (if h : i < 13 then f ⟨i, h⟩ else .error .registerIndex)

def getU64 (s : State) (i : Nat) : Except Refusal Word := s.withReg i fun r => .ok (s.reg r)

/-- `getU32` and `getLowerU32`. -/
def getU32 (s : State) (i : Nat) : Except Refusal (BitVec 32) := s.withReg i fun r => .ok (lo32 (s.reg r))

def getLowerI32 (s : State) (i : Nat) : Except Refusal Int := s.withReg i fun r => .ok (lo32 (s.reg r)).toInt

/-- The low `n` bytes, 1 to 8 of them, the least significant first. -/
def getBytesAsLittleEndian (s : State) (i n : Nat) : Except Refusal (List Byte) :=
  s.withReg i fun r => if 1 ≤ n ∧ n ≤ 8 then .ok (leBytes n (s.reg r)) else .error .accessorLength

/-- `setU64`: the value modulo 2^64. -/
def setU64 (i v : Nat) (s : State) : Result :=
  hostAnswer (s.withReg i fun r => .ok (s.setReg r (BitVec.ofNat 64 v)))

/-- `setU32`: the value modulo 2^32, sign-extended. -/
def setU32 (i v : Nat) (s : State) : Result :=
  hostAnswer (s.withReg i fun r => .ok (s.setReg r (sext32 (BitVec.ofNat 32 v))))

/-- The snapshot of a register file: 13 lanes of 8 bytes (10_state.md R23). -/
def encodeRegs (regs : Vector Word 13) : List Byte := regs.toList.flatMap (leBytes 8)

/-- The register file of a snapshot (10_state.md R23). -/
def decodeRegs (bs : List Byte) : Vector Word 13 :=
  Vector.ofFn fun i => BitVec.ofNat 64 (leValue ((bs.drop (8 * i)).take 8))

def getAllEncoded (s : State) : Except Refusal (List Byte) := s.guarded (.ok (encodeRegs s.regs))

def setAllEncoded (bs : List Byte) (s : State) : Result :=
  hostAnswer (s.guarded (if bs.length = snapshotLen then .ok { s with regs := decodeRegs bs }
    else .error .invalidLength))

/-! ### Memory (20_memory.md R65, R87) -/

/-- The host's `loadInto`. -/
def hostLoadInto (s : State) (a n : Nat) : Except Refusal (Except Fault (List Byte)) :=
  s.guarded (.ok (s.mem.loadInto a n))

/-- The host's `storeFrom`. -/
def hostStoreFrom (a : Nat) (bs : List Byte) (s : State) : Result :=
  match s.guarded (.ok (s.mem.storeFrom a bs)) with
  | .error e => .refused e
  | .ok (.error f) => .fault f
  | .ok (.ok m) => .next { s with mem := m }

/-! ### Gas -/

/-- `chargeGas(cost)` (60_exceptions.md R368): the host's charge on a suspended instance, refused in any other
status (93_implementation_defined.md U32, log 7). -/
def chargeGas (cost : Nat) (s : State) : Result :=
  hostAnswer (s.guarded (match s.status with
    | .host _ => .ok (charge cost s)
    | _ => .error .notSuspended))

end Sys2Proof.Machine
end

