-- ==== Sys2Proof/Machine/Spi.lean ====
section
/-! DEFINITION. The standard program initializer (70_reset_and_hazards.md R392 to R399). -/

namespace Sys2Proof.Machine

/-- `P(n)` (R394): up to a page. -/
def roundPage (n : Nat) : Nat := config.spiPage * ((n + config.spiPage - 1) / config.spiPage)

/-- `Z(n)` (R394): up to a zone. -/
def roundZone (n : Nat) : Nat := config.spiZone * ((n + config.spiZone - 1) / config.spiZone)

/-- `S`, the end of the stack segment (R395). -/
def stackTop : Nat := memorySize - 2 * config.spiZone - config.spiMaxData

/-- `A`, the start of the argument segment (R395). -/
def argsStart : Nat := memorySize - config.spiZone - config.spiMaxData

/-- The preamble's fields (R393). -/
structure SpiBlob where
  readOnly : List Byte
  heap : List Byte
  heapPages : Nat
  stack : Nat
  code : List Byte
deriving DecidableEq, Repr

/-- `n` bytes from offset `i` on. -/
def slice (bs : List Byte) (i n : Nat) : List Byte := (bs.drop i).take n

/-- The preamble (R393); none when the blob is shorter than its fields require or bytes remain after `c`. -/
def parseSpi (blob : List Byte) : Option SpiBlob :=
  let o := leValue (slice blob 0 3)
  let w := leValue (slice blob 3 3)
  let c := leValue (slice blob (11 + o + w) 4)
  if 15 + o + w ≤ blob.length ∧ blob.length = 15 + o + w + c then
    some
      { readOnly := slice blob 11 o
        heap := slice blob (11 + o) w
        heapPages := leValue (slice blob 6 2)
        stack := leValue (slice blob 8 3)
        code := slice blob (15 + o + w) c }
  else none

/-- A segment: addresses `[start, stop)` holding `data`, then zeros. -/
structure Segment where
  start : Nat
  stop : Nat
  data : List Byte
deriving DecidableEq, Repr

/-- What `spi` returns (R398). -/
structure SpiProgram where
  code : List Byte
  readableSegments : List Segment
  writeableSegments : List Segment
  heapStart : Nat
  sbrkIndex : Nat
  heapEnd : Nat
  registers : Vector Word 13
deriving DecidableEq, Repr

/-- The limits of R393: data lengths, and the size of the whole layout. -/
def SpiBlob.fits (b : SpiBlob) (args : List Byte) : Bool :=
  decide (b.readOnly.length ≤ config.spiMaxData) && decide (b.heap.length ≤ config.spiMaxData) &&
    decide (args.length ≤ config.spiMaxData) &&
    decide (5 * config.spiZone + roundZone b.readOnly.length + roundZone (b.heap.length + b.heapPages * config.spiPage) +
      roundZone b.stack + config.spiMaxData ≤ memorySize)

/-- `H`, the start of the heap segment (R395). -/
def SpiBlob.heapBase (b : SpiBlob) : Nat := 2 * config.spiZone + roundZone b.readOnly.length

/-- The end of the heap segment (R395). -/
def SpiBlob.heapTop (b : SpiBlob) : Nat := b.heapBase + roundPage b.heap.length + b.heapPages * config.spiPage

/-- A segment of length 0 does not exist (R395). -/
def present (l : List Segment) : List Segment := l.filter fun g => decide (g.start < g.stop)

/-- The seeded registers (R397). -/
def spiRegisters (argsLen : Nat) : Vector Word 13 :=
  #v[0xFFFF0000, ofCount stackTop, 0, 0, 0, 0, 0, ofCount argsStart, ofCount argsLen, 0, 0, 0, 0]

/-- `spi(blob, args)` (R392 to R397). -/
def spi (blob args : List Byte) : Except Refusal SpiProgram :=
  match parseSpi blob with
  | none => .error .invalidLength
  | some b =>
    if b.fits args then
      .ok
        { code := b.code
          readableSegments := present
            [⟨config.spiZone, config.spiZone + roundPage b.readOnly.length, b.readOnly⟩,
             ⟨argsStart, argsStart + roundPage args.length, args⟩]
          writeableSegments := present
            [⟨b.heapBase, b.heapTop, b.heap⟩, ⟨stackTop - roundPage b.stack, stackTop, []⟩]
          heapStart := b.heapBase
          sbrkIndex := b.heapTop
          heapEnd := stackTop - roundPage b.stack
          registers := spiRegisters args.length }
    else .error .invalidLength

/-- Build a list of segments. -/
def buildSegments (set : Nat → Nat → List Byte → Builder → Except Refusal Builder) :
    List Segment → Builder → Except Refusal Builder
  | [], b => .ok b
  | g :: gs, b =>
    match set g.start g.stop g.data b with
    | .error e => .error e
    | .ok b => buildSegments set gs b

/-- The memory the host builds of an SPI program (R396, R398), with the heap values of R396 (log 6). -/
def SpiProgram.memory (p : SpiProgram) : Except Refusal Memory :=
  match buildSegments Builder.setReadablePages p.readableSegments {} with
  | .error e => .error e
  | .ok b =>
    match buildSegments Builder.setWriteablePages p.writeableSegments b with
    | .error e => .error e
    | .ok b =>
      match b.finalize p.sbrkIndex p.heapEnd with
      | .error e => .error e
      | .ok m => .ok { m with heapStart := p.heapStart }

end Sys2Proof.Machine
end

