-- ==== Sys2Proof/Safety.lean ====
section
/-! DEFINITION. What counts as a good state and a good run, and the spec's own notation for values, accesses and
transfers, in the terms the statements use. -/

namespace Sys2Proof.Machine

/-! ### The notation of 00_scope.md R8 and R9, on integers -/

/-- `s_N(v)`: the signed view of the low `N` bits. -/
def sView (N : Nat) (v : Int) : Int := if v % 2 ^ N < 2 ^ (N - 1) then v % 2 ^ N else v % 2 ^ N - 2 ^ N

/-- `sext_N(v)`: the low `N` bits sign-extended to 64 bits. -/
def sext (N : Nat) (v : Int) : Word := fromSigned (sView N v)

/-- `x[r]` as an unsigned integer. -/
def State.uns (s : State) (r : Reg) : Int := (s.reg r).toNat

/-- `s_64(x[r])`. -/
def State.sgn (s : State) (r : Reg) : Int := sView 64 (s.uns r)

/-- `trunc(a / b)`. -/
def truncDiv (a b : Int) : Int :=
  if (a < 0) = (b < 0) then ((a.natAbs / b.natAbs : Nat) : Int) else -((a.natAbs / b.natAbs : Nat) : Int)

/-- The remainder of magnitude `|a| mod |b|` with the sign of `a` (40_math.md R174). -/
def signedRem (a b : Int) : Int :=
  if a < 0 then -((a.natAbs % b.natAbs : Nat) : Int) else ((a.natAbs % b.natAbs : Nat) : Int)

/-- The value `2^64 - 1`. -/
def allOnes64 : Word := fromSigned (2 ^ 64 - 1)

/-! ### The laws of shifts and rotates (41_shift.md R190, 42_bit.md R210): `v` the value, `n` the amount -/

/-- Logical left: `(v * 2^n) mod 2^N`. -/
def shiftLeftLaw (N : Nat) (v n : Word) : Int := (v.toNat : Int) * 2 ^ (n.toNat % N) % 2 ^ N

/-- Logical right: `floor(u_N(v) / 2^n)`. -/
def shiftRightLaw (N : Nat) (v n : Word) : Int := (v.toNat : Int) % 2 ^ N / 2 ^ (n.toNat % N)

/-- Arithmetic right: `floor(s_N(v) / 2^n)`. -/
def shiftArithLaw (N : Nat) (v n : Word) : Int := sView N v.toNat / 2 ^ (n.toNat % N)

/-- `rotl_W(v, n)` of a `W`-bit value `v`. -/
def rotlLaw (W v n : Nat) : Int := ((v * 2 ^ (n % W) % 2 ^ W + v / 2 ^ (W - n % W) : Nat) : Int)

/-- `rotr_W(v, n) = rotl_W(v, W - (n mod W))`. -/
def rotrLaw (W v n : Nat) : Int := rotlLaw W v (W - n % W)

/-- The 64-bit value whose bit `j` is `f j`. -/
def wordOfBits (f : Nat → Bool) : Word := BitVec.ofNat 64 (Nat.ofBits fun j : Fin 64 => f j)

/-! ### The ends of a step, as explicit next states -/

/-- One register written, and `pc <- pc + len`; nothing else. -/
def State.wrote (s : State) (r : Reg) (v : Word) : State := { s with regs := s.regs.set r v, pc := s.nextPc }

/-- `pc <- pc + len`, and nothing else. -/
def State.passed (s : State) : State := { s with pc := s.nextPc }

/-- The status is `st`, and nothing else changed (60_exceptions.md R343). -/
def State.stopped (s : State) (st : Status) : State := { s with status := st }

/-- A static target `T` is legal (47_control_flow.md R300): `0 <= T < |c|` and `B[T] = 1`. -/
def State.mayLand (s : State) (T : Int) : Prop :=
  0 ≤ T ∧ T < s.image.code.length ∧ s.blocks[T.toNat]? = some true

/-- A dynamic target `a` meets the requirements of 47_control_flow.md R301 after the two sentinels. -/
def State.mayJump (s : State) (a : Nat) : Prop :=
  a % s.params.jumpAlign = 0 ∧ a ∈ s.image.jumpTable ∧ a < s.image.code.length ∧ s.blocks[a]? = some true

/-- `branch(T, cond)` (47_control_flow.md R300) is what `i` does at `s`, where `s1` is `s` with what `i` writes
before it: fall through when `cond` fails, go to a legal target, PANIC at an illegal one. -/
def BranchesTo (i : Instr) (s s1 : State) (T : Int) (cond : Prop) : Prop :=
  (¬cond → exec i s = .next s1.passed) ∧
  (cond → s.mayLand T → ∃ p : CodeAddr, (p.toNat : Int) = T ∧ exec i s = .next { s1 with pc := p }) ∧
  (cond → ¬s.mayLand T → exec i s = .next (s1.stopped .panic))

/-- `djump(a)` (47_control_flow.md R301) is what `i` does at `s`, where `s1` is `s` with what `i` writes before
it. -/
def JumpsTo (i : Instr) (s s1 : State) (a : Nat) : Prop :=
  (a = 0 → exec i s = .next (s1.stopped .panic)) ∧
  (a ≠ 0 → a = s.params.exitAddr.toNat → exec i s = .next (s1.stopped .halt)) ∧
  (a ≠ 0 → a ≠ s.params.exitAddr.toNat → s.mayJump a →
    ∃ p : CodeAddr, p.toNat = a ∧ exec i s = .next { s1 with pc := p }) ∧
  (a ≠ 0 → a ≠ s.params.exitAddr.toNat → ¬s.mayJump a → exec i s = .next (s1.stopped .panic))

/-! ### Accesses -/

/-- The check of an `n`-byte read at `a` succeeds (20_memory.md R62, R65, R67), `n > 0`. -/
def Memory.mayRead (m : Memory) (a n : Nat) : Prop :=
  a + n ≤ 2 ^ 32 ∧ ∀ j < n, m.pageState ((a + j) / 4096) ≠ .absent

/-- The check of an `n`-byte write at `a` succeeds (20_memory.md R62, R65, R67), `n > 0`. -/
def Memory.mayWrite (m : Memory) (a n : Nat) : Prop :=
  a + n ≤ 2 ^ 32 ∧ ∀ j < n, m.pageState ((a + j) / 4096) = .writable

/-- `sum over j in 0..n-1 of byte(a + j) * 2^(8j)` (20_memory.md R73). -/
def Memory.leSum (m : Memory) (a n : Nat) : Nat := ∑ j ∈ Finset.range n, (m.byte (a + j)).toNat * 2 ^ (8 * j)

/-- `m'` is `m` with the bytes `f 0` to `f (n - 1)` at `a` on, every other byte, the page states and the heap
values as they were, and in the canonical form. -/
structure Memory.Wrote (m m' : Memory) (a n : Nat) (f : Nat → Byte) : Prop where
  wf : m'.wf
  pages : ∀ p, m'.pageState p = m.pageState p
  heap : m'.heapStart = m.heapStart ∧ m'.heapEnd = m.heapEnd ∧ m'.sbrkIndex = m.sbrkIndex
  inside : ∀ j < n, m'.byte (a + j) = f j
  outside : ∀ x, x < a ∨ a + n ≤ x → m'.byte x = m.byte x

/-- A load of `n` bytes at `a` into `rA`, giving `v` (45_load.md R260), is what `i` does at `s`. -/
def LoadsFrom (i : Instr) (s : State) (rA : Reg) (a n : Nat) (v : Word) : Prop :=
  (s.mem.mayRead a n → exec i s = .next (s.wrote rA v)) ∧
  (¬s.mem.mayRead a n → exec i s = .next (s.stopped .panic))

/-- A store of the low `n` bytes of `v` at `a` (46_store.md R280) is what `i` does at `s`. -/
def StoresTo (i : Instr) (s : State) (a n : Nat) (v : Word) : Prop :=
  (s.mem.mayWrite a n → ∃ m, exec i s = .next { s with mem := m, pc := s.nextPc } ∧
    s.mem.Wrote m a n fun j => BitVec.ofNat 8 (v.toNat / 2 ^ (8 * j) % 256)) ∧
  (¬s.mem.mayWrite a n → exec i s = .next (s.stopped .panic))

/-! ### The opcode map -/

/-- The assigned opcodes (30_encoding.md R122). -/
def assignedOpcodes : List Nat :=
  [0, 1, 10, 20] ++ List.range' 30 4 ++ [40] ++ List.range' 50 13 ++ List.range' 70 4 ++ List.range' 80 11 ++
    [100] ++ List.range' 102 10 ++ List.range' 120 42 ++ List.range' 170 6 ++ [180] ++ List.range' 190 41

/-- The block-terminating opcodes `T` (30_encoding.md R131). -/
def terminatorOpcodes : List Nat :=
  [0, 1, 40, 50, 80, 81, 82, 83, 84, 85, 86, 87, 88, 89, 90, 170, 171, 172, 173, 174, 175, 180]

/-- The cost of a step at `pc` (60_exceptions.md R341 steps 4 and 5). -/
def State.costAt (s : State) (pc : CodeAddr) : Nat :=
  match s.image.code[pc.toNat]? with
  | some op => if op.toNat ∈ assignedOpcodes then s.params.gasCost op.toNat else s.params.gasCost 0
  | none => s.params.gasCost 0

/-! ### Good states -/

/-- The terminal statuses (00_scope.md R11, 60_exceptions.md R354): all but OK and HOST. -/
def Status.terminal : Status → Bool
  | .ok => false
  | .host _ => false
  | _ => true

/-- The status is HOST. -/
def Status.isHost : Status → Bool
  | .host _ => true
  | _ => false

/-- The image is one that loads, and the basic-block map is its own (30_encoding.md R101, R130). -/
abbrev State.ImageInv (s : State) : Prop := s.image.wf = true ∧ s.blocks = blockMap s.image

/-- What the status records (60_exceptions.md R348, R349, R369): FAULT holds the `pc`, which is outside the code;
HOST has recorded the offset after the instruction at `pc`. -/
def State.StatusInv (s : State) : Prop :=
  match s.status with
  | .fault a => a = s.pc ∧ s.image.code.length ≤ s.pc.toNat
  | .host _ => s.resumePc = s.nextPc
  | _ => True

/-- The invariant of the machine: canonical memory, a loaded image, a positive alignment parameter, a status that
records what the spec says. -/
structure State.Inv (s : State) : Prop where
  mem : s.mem.wf
  image : s.ImageInv
  align : 0 < s.params.jumpAlign
  status : s.StatusInv

end Sys2Proof.Machine
end

