-- ==== Sys2Proof/Certificates/Slice0/Obligations.lean ====
section
/-! DEFINITION. The statements for the provers, one `def Obligations.<Name> : Prop` each; OBLIGATIONS.json lists
them with the rules of the spec they rest on. -/

open Sys2Proof Sys2Proof.Machine

/-- For every state and operands, each of the eight instructions answers the next state with the destination register
holding the exact integer sum or difference reduced mod 2^32 (sign-extended) or mod 2^64, pc advanced by the length,
and everything else as it was; each is the instruction its opcode and shape name. Formalises R153, R154, R155, R156,
R157, R158, R159, R160. -/
def Obligations.AddSubtractResults : Prop :=
  (opcodeTable.lookup 190 = some (.threeRegisters .add32) ∧
   opcodeTable.lookup 200 = some (.threeRegisters .add64) ∧
   opcodeTable.lookup 131 = some (.twoRegistersOneImmediate .addImm32) ∧
   opcodeTable.lookup 149 = some (.twoRegistersOneImmediate .addImm64) ∧
   opcodeTable.lookup 191 = some (.threeRegisters .sub32) ∧
   opcodeTable.lookup 201 = some (.threeRegisters .sub64) ∧
   opcodeTable.lookup 141 = some (.twoRegistersOneImmediate .negAddImm32) ∧
   opcodeTable.lookup 154 = some (.twoRegistersOneImmediate .negAddImm64)) ∧
  ∀ (rD rA rB : Reg) (immX : Word) (s : State),
    exec (.add32 rD rA rB) s = .next (s.wrote rD (sext 32 ((s.uns rA + s.uns rB) % 2 ^ 32))) ∧
    exec (.add64 rD rA rB) s = .next (s.wrote rD (fromSigned ((s.uns rA + s.uns rB) % 2 ^ 64))) ∧
    exec (.addImm32 rA rB immX) s = .next (s.wrote rA (sext 32 ((s.uns rB + (immX.toNat : Int)) % 2 ^ 32))) ∧
    exec (.addImm64 rA rB immX) s = .next (s.wrote rA (fromSigned ((s.uns rB + (immX.toNat : Int)) % 2 ^ 64))) ∧
    exec (.sub32 rD rA rB) s = .next (s.wrote rD (sext 32 ((s.uns rA - s.uns rB) % 2 ^ 32))) ∧
    exec (.sub64 rD rA rB) s = .next (s.wrote rD (fromSigned ((s.uns rA - s.uns rB) % 2 ^ 64))) ∧
    exec (.negAddImm32 rA rB immX) s = .next (s.wrote rA (sext 32 (((immX.toNat : Int) - s.uns rB) % 2 ^ 32))) ∧
    exec (.negAddImm64 rA rB immX) s = .next (s.wrote rA (fromSigned (((immX.toNat : Int) - s.uns rB) % 2 ^ 64)))

/-- For every state and operands, each of the seven multiply instructions answers the next state with the destination
holding the exact integer product reduced to the width, or its floor over 2^64, and nothing else changed but pc.
Formalises R161, R162, R163, R164, R165, R166, R167. -/
def Obligations.MultiplyResults : Prop :=
  (opcodeTable.lookup 192 = some (.threeRegisters .mul32) ∧
   opcodeTable.lookup 202 = some (.threeRegisters .mul64) ∧
   opcodeTable.lookup 135 = some (.twoRegistersOneImmediate .mulImm32) ∧
   opcodeTable.lookup 150 = some (.twoRegistersOneImmediate .mulImm64) ∧
   opcodeTable.lookup 213 = some (.threeRegisters .mulUpperSS) ∧
   opcodeTable.lookup 214 = some (.threeRegisters .mulUpperUU) ∧
   opcodeTable.lookup 215 = some (.threeRegisters .mulUpperSU)) ∧
  ∀ (rD rA rB : Reg) (immX : Word) (s : State),
    exec (.mul32 rD rA rB) s = .next (s.wrote rD (sext 32 (s.uns rA * s.uns rB % 2 ^ 32))) ∧
    exec (.mul64 rD rA rB) s = .next (s.wrote rD (fromSigned (s.uns rA * s.uns rB % 2 ^ 64))) ∧
    exec (.mulImm32 rA rB immX) s = .next (s.wrote rA (sext 32 (s.uns rB * (immX.toNat : Int) % 2 ^ 32))) ∧
    exec (.mulImm64 rA rB immX) s = .next (s.wrote rA (fromSigned (s.uns rB * (immX.toNat : Int) % 2 ^ 64))) ∧
    exec (.mulUpperSS rD rA rB) s = .next (s.wrote rD (fromSigned (s.sgn rA * s.sgn rB / 2 ^ 64))) ∧
    exec (.mulUpperUU rD rA rB) s = .next (s.wrote rD (fromSigned (s.uns rA * s.uns rB / 2 ^ 64))) ∧
    exec (.mulUpperSU rD rA rB) s = .next (s.wrote rD (fromSigned (s.sgn rA * s.uns rB / 2 ^ 64)))

/-- For every state and operands, each of the eight divide and remainder instructions answers a next state (none traps):
a zero divisor gives all 64 bits set or the dividend, the signed overflow gives the dividend or 0, and otherwise the
destination holds the floor or truncated quotient or the remainder with the sign of the dividend. Formalises R168,
R169, R170, R171, R172, R173, R174, R175. -/
def Obligations.DivideRemainderResults : Prop :=
  (opcodeTable.lookup 193 = some (.threeRegisters .divU32) ∧
   opcodeTable.lookup 203 = some (.threeRegisters .divU64) ∧
   opcodeTable.lookup 194 = some (.threeRegisters .divS32) ∧
   opcodeTable.lookup 204 = some (.threeRegisters .divS64) ∧
   opcodeTable.lookup 195 = some (.threeRegisters .remU32) ∧
   opcodeTable.lookup 205 = some (.threeRegisters .remU64) ∧
   opcodeTable.lookup 196 = some (.threeRegisters .remS32) ∧
   opcodeTable.lookup 206 = some (.threeRegisters .remS64)) ∧
  ∀ (rD rA rB : Reg) (s : State),
    exec (.divU32 rD rA rB) s =
      .next (s.wrote rD (if s.uns rB % 2 ^ 32 = 0 then allOnes64
        else sext 32 (s.uns rA % 2 ^ 32 / (s.uns rB % 2 ^ 32)))) ∧
    exec (.divU64 rD rA rB) s =
      .next (s.wrote rD (if s.uns rB = 0 then allOnes64 else fromSigned (s.uns rA / s.uns rB))) ∧
    exec (.divS32 rD rA rB) s = .next (s.wrote rD (if sView 32 (s.uns rB) = 0 then allOnes64
      else if sView 32 (s.uns rA) = -2 ^ 31 ∧ sView 32 (s.uns rB) = -1 then fromSigned (sView 32 (s.uns rA))
      else fromSigned (truncDiv (sView 32 (s.uns rA)) (sView 32 (s.uns rB))))) ∧
    exec (.divS64 rD rA rB) s = .next (s.wrote rD (if s.sgn rB = 0 then allOnes64
      else if s.sgn rA = -2 ^ 63 ∧ s.sgn rB = -1 then s.reg rA
      else fromSigned (truncDiv (s.sgn rA) (s.sgn rB)))) ∧
    exec (.remU32 rD rA rB) s =
      .next (s.wrote rD (if s.uns rB % 2 ^ 32 = 0 then sext 32 (s.uns rA % 2 ^ 32)
        else sext 32 (s.uns rA % 2 ^ 32 % (s.uns rB % 2 ^ 32)))) ∧
    exec (.remU64 rD rA rB) s =
      .next (s.wrote rD (if s.uns rB = 0 then s.reg rA else fromSigned (s.uns rA % s.uns rB))) ∧
    exec (.remS32 rD rA rB) s = .next (s.wrote rD (if sView 32 (s.uns rA) = -2 ^ 31 ∧ sView 32 (s.uns rB) = -1 then 0
      else if sView 32 (s.uns rB) = 0 then fromSigned (sView 32 (s.uns rA))
      else fromSigned (signedRem (sView 32 (s.uns rA)) (sView 32 (s.uns rB))))) ∧
    exec (.remS64 rD rA rB) s = .next (s.wrote rD (if s.sgn rA = -2 ^ 63 ∧ s.sgn rB = -1 then 0
      else if s.sgn rB = 0 then s.reg rA
      else fromSigned (signedRem (s.sgn rA) (s.sgn rB))))

/-- For every state and operands, MAX, MAX_U, MIN and MIN_U answer the next state with the destination holding the
larger or the smaller source on the view the mnemonic names, and nothing else changed but pc. Formalises R176, R177,
R178, R179. -/
def Obligations.MinimumMaximumResults : Prop :=
  (opcodeTable.lookup 227 = some (.threeRegisters .max) ∧
   opcodeTable.lookup 228 = some (.threeRegisters .maxU) ∧
   opcodeTable.lookup 229 = some (.threeRegisters .min) ∧
   opcodeTable.lookup 230 = some (.threeRegisters .minU)) ∧
  ∀ (rD rA rB : Reg) (s : State),
    exec (.max rD rA rB) s = .next (s.wrote rD (if s.sgn rA ≥ s.sgn rB then s.reg rA else s.reg rB)) ∧
    exec (.maxU rD rA rB) s = .next (s.wrote rD (fromSigned (max (s.uns rA) (s.uns rB)))) ∧
    exec (.min rD rA rB) s = .next (s.wrote rD (if s.sgn rA ≤ s.sgn rB then s.reg rA else s.reg rB)) ∧
    exec (.minU rD rA rB) s = .next (s.wrote rD (fromSigned (min (s.uns rA) (s.uns rB))))

/-- For every state and operands, each of the six three-register shifts answers the next state with the destination
holding the value shifted by the amount modulo the width, 32-bit results sign-extended, and nothing else changed but
pc. Formalises R191, R192, R193, R194, R195, R196. -/
def Obligations.ShiftRegisterResults : Prop :=
  (opcodeTable.lookup 197 = some (.threeRegisters .shloL32) ∧
   opcodeTable.lookup 207 = some (.threeRegisters .shloL64) ∧
   opcodeTable.lookup 198 = some (.threeRegisters .shloR32) ∧
   opcodeTable.lookup 208 = some (.threeRegisters .shloR64) ∧
   opcodeTable.lookup 199 = some (.threeRegisters .sharR32) ∧
   opcodeTable.lookup 209 = some (.threeRegisters .sharR64)) ∧
  ∀ (rD rA rB : Reg) (s : State),
    exec (.shloL32 rD rA rB) s = .next (s.wrote rD (sext 32 (shiftLeftLaw 32 (s.reg rA) (s.reg rB)))) ∧
    exec (.shloL64 rD rA rB) s = .next (s.wrote rD (fromSigned (shiftLeftLaw 64 (s.reg rA) (s.reg rB)))) ∧
    exec (.shloR32 rD rA rB) s = .next (s.wrote rD (sext 32 (shiftRightLaw 32 (s.reg rA) (s.reg rB)))) ∧
    exec (.shloR64 rD rA rB) s = .next (s.wrote rD (fromSigned (shiftRightLaw 64 (s.reg rA) (s.reg rB)))) ∧
    exec (.sharR32 rD rA rB) s = .next (s.wrote rD (fromSigned (shiftArithLaw 32 (s.reg rA) (s.reg rB)))) ∧
    exec (.sharR64 rD rA rB) s = .next (s.wrote rD (fromSigned (shiftArithLaw 64 (s.reg rA) (s.reg rB))))

/-- For every state and operands, each of the twelve immediate shifts answers the next state with the destination
holding the value (the register, or in the ALT forms the immediate) shifted by the amount modulo the width, and
nothing else changed but pc. Formalises R197, R198, R199, R200, R201, R202, R203, R204, R205, R206, R207, R208. -/
def Obligations.ShiftImmediateResults : Prop :=
  (opcodeTable.lookup 138 = some (.twoRegistersOneImmediate .shloLImm32) ∧
   opcodeTable.lookup 151 = some (.twoRegistersOneImmediate .shloLImm64) ∧
   opcodeTable.lookup 139 = some (.twoRegistersOneImmediate .shloRImm32) ∧
   opcodeTable.lookup 152 = some (.twoRegistersOneImmediate .shloRImm64) ∧
   opcodeTable.lookup 140 = some (.twoRegistersOneImmediate .sharRImm32) ∧
   opcodeTable.lookup 153 = some (.twoRegistersOneImmediate .sharRImm64) ∧
   opcodeTable.lookup 144 = some (.twoRegistersOneImmediate .shloLImmAlt32) ∧
   opcodeTable.lookup 155 = some (.twoRegistersOneImmediate .shloLImmAlt64) ∧
   opcodeTable.lookup 145 = some (.twoRegistersOneImmediate .shloRImmAlt32) ∧
   opcodeTable.lookup 156 = some (.twoRegistersOneImmediate .shloRImmAlt64) ∧
   opcodeTable.lookup 146 = some (.twoRegistersOneImmediate .sharRImmAlt32) ∧
   opcodeTable.lookup 157 = some (.twoRegistersOneImmediate .sharRImmAlt64)) ∧
  ∀ (rA rB : Reg) (immX : Word) (s : State),
    exec (.shloLImm32 rA rB immX) s = .next (s.wrote rA (sext 32 (shiftLeftLaw 32 (s.reg rB) immX))) ∧
    exec (.shloLImm64 rA rB immX) s = .next (s.wrote rA (fromSigned (shiftLeftLaw 64 (s.reg rB) immX))) ∧
    exec (.shloRImm32 rA rB immX) s = .next (s.wrote rA (sext 32 (shiftRightLaw 32 (s.reg rB) immX))) ∧
    exec (.shloRImm64 rA rB immX) s = .next (s.wrote rA (fromSigned (shiftRightLaw 64 (s.reg rB) immX))) ∧
    exec (.sharRImm32 rA rB immX) s = .next (s.wrote rA (fromSigned (shiftArithLaw 32 (s.reg rB) immX))) ∧
    exec (.sharRImm64 rA rB immX) s = .next (s.wrote rA (fromSigned (shiftArithLaw 64 (s.reg rB) immX))) ∧
    exec (.shloLImmAlt32 rA rB immX) s = .next (s.wrote rA (sext 32 (shiftLeftLaw 32 immX (s.reg rB)))) ∧
    exec (.shloLImmAlt64 rA rB immX) s = .next (s.wrote rA (fromSigned (shiftLeftLaw 64 immX (s.reg rB)))) ∧
    exec (.shloRImmAlt32 rA rB immX) s = .next (s.wrote rA (sext 32 (shiftRightLaw 32 immX (s.reg rB)))) ∧
    exec (.shloRImmAlt64 rA rB immX) s = .next (s.wrote rA (fromSigned (shiftRightLaw 64 immX (s.reg rB)))) ∧
    exec (.sharRImmAlt32 rA rB immX) s = .next (s.wrote rA (fromSigned (shiftArithLaw 32 immX (s.reg rB)))) ∧
    exec (.sharRImmAlt64 rA rB immX) s = .next (s.wrote rA (fromSigned (shiftArithLaw 64 immX (s.reg rB))))

/-- For every state and operands, each of the nine logical instructions answers the next state with every one of the 64
bits of the destination the named function of the same bits of the operands (an immediate as the 64-bit value), and
nothing else changed but pc. Formalises R211, R212, R213, R214, R215, R216, R217, R218, R219. -/
def Obligations.LogicalResults : Prop :=
  (opcodeTable.lookup 210 = some (.threeRegisters .and) ∧
   opcodeTable.lookup 211 = some (.threeRegisters .xor) ∧
   opcodeTable.lookup 212 = some (.threeRegisters .or) ∧
   opcodeTable.lookup 132 = some (.twoRegistersOneImmediate .andImm) ∧
   opcodeTable.lookup 133 = some (.twoRegistersOneImmediate .xorImm) ∧
   opcodeTable.lookup 134 = some (.twoRegistersOneImmediate .orImm) ∧
   opcodeTable.lookup 224 = some (.threeRegisters .andInv) ∧
   opcodeTable.lookup 225 = some (.threeRegisters .orInv) ∧
   opcodeTable.lookup 226 = some (.threeRegisters .xnor)) ∧
  ∀ (rD rA rB : Reg) (immX : Word) (s : State),
    exec (.and rD rA rB) s = .next (s.wrote rD (wordOfBits fun j => (s.reg rA).getLsbD j && (s.reg rB).getLsbD j)) ∧
    exec (.xor rD rA rB) s =
      .next (s.wrote rD (wordOfBits fun j => xor ((s.reg rA).getLsbD j) ((s.reg rB).getLsbD j))) ∧
    exec (.or rD rA rB) s = .next (s.wrote rD (wordOfBits fun j => (s.reg rA).getLsbD j || (s.reg rB).getLsbD j)) ∧
    exec (.andImm rA rB immX) s = .next (s.wrote rA (wordOfBits fun j => (s.reg rB).getLsbD j && immX.getLsbD j)) ∧
    exec (.xorImm rA rB immX) s =
      .next (s.wrote rA (wordOfBits fun j => xor ((s.reg rB).getLsbD j) (immX.getLsbD j))) ∧
    exec (.orImm rA rB immX) s = .next (s.wrote rA (wordOfBits fun j => (s.reg rB).getLsbD j || immX.getLsbD j)) ∧
    exec (.andInv rD rA rB) s =
      .next (s.wrote rD (wordOfBits fun j => (s.reg rA).getLsbD j && !(s.reg rB).getLsbD j)) ∧
    exec (.orInv rD rA rB) s =
      .next (s.wrote rD (wordOfBits fun j => (s.reg rA).getLsbD j || !(s.reg rB).getLsbD j)) ∧
    exec (.xnor rD rA rB) s =
      .next (s.wrote rD (wordOfBits fun j => !(xor ((s.reg rA).getLsbD j) ((s.reg rB).getLsbD j))))

/-- For every state and operands, each of the eight rotates answers the next state with the destination holding the
value rotated left or right by the amount modulo the width, 32-bit results sign-extended, and nothing else changed
but pc. Formalises R220, R221, R222, R223, R224, R225, R226, R227. -/
def Obligations.RotateResults : Prop :=
  (opcodeTable.lookup 220 = some (.threeRegisters .rotL64) ∧
   opcodeTable.lookup 221 = some (.threeRegisters .rotL32) ∧
   opcodeTable.lookup 222 = some (.threeRegisters .rotR64) ∧
   opcodeTable.lookup 223 = some (.threeRegisters .rotR32) ∧
   opcodeTable.lookup 158 = some (.twoRegistersOneImmediate .rotR64Imm) ∧
   opcodeTable.lookup 159 = some (.twoRegistersOneImmediate .rotR64ImmAlt) ∧
   opcodeTable.lookup 160 = some (.twoRegistersOneImmediate .rotR32Imm) ∧
   opcodeTable.lookup 161 = some (.twoRegistersOneImmediate .rotR32ImmAlt)) ∧
  ∀ (rD rA rB : Reg) (immX : Word) (s : State),
    exec (.rotL64 rD rA rB) s = .next (s.wrote rD (fromSigned (rotlLaw 64 (s.reg rA).toNat (s.reg rB).toNat))) ∧
    exec (.rotL32 rD rA rB) s =
      .next (s.wrote rD (sext 32 (rotlLaw 32 ((s.reg rA).toNat % 2 ^ 32) (s.reg rB).toNat))) ∧
    exec (.rotR64 rD rA rB) s = .next (s.wrote rD (fromSigned (rotrLaw 64 (s.reg rA).toNat (s.reg rB).toNat))) ∧
    exec (.rotR32 rD rA rB) s =
      .next (s.wrote rD (sext 32 (rotrLaw 32 ((s.reg rA).toNat % 2 ^ 32) (s.reg rB).toNat))) ∧
    exec (.rotR64Imm rA rB immX) s = .next (s.wrote rA (fromSigned (rotrLaw 64 (s.reg rB).toNat immX.toNat))) ∧
    exec (.rotR64ImmAlt rA rB immX) s = .next (s.wrote rA (fromSigned (rotrLaw 64 immX.toNat (s.reg rB).toNat))) ∧
    exec (.rotR32Imm rA rB immX) s =
      .next (s.wrote rA (sext 32 (rotrLaw 32 ((s.reg rB).toNat % 2 ^ 32) immX.toNat))) ∧
    exec (.rotR32ImmAlt rA rB immX) s =
      .next (s.wrote rA (sext 32 (rotrLaw 32 (immX.toNat % 2 ^ 32) (s.reg rB).toNat)))

/-- For every state and operands, each of the six count instructions answers the next state with the destination holding
the number of 1 bits, or the length n of the run of 0 bits from the top or from bit 0 (the bits of the run are 0
and, when it is shorter than the width, the next bit is 1), and nothing else changed but pc. Formalises R228, R229,
R230, R231, R232, R233. -/
def Obligations.BitCountResults : Prop :=
  (opcodeTable.lookup 102 = some (.twoRegisters .countSetBits64) ∧
   opcodeTable.lookup 103 = some (.twoRegisters .countSetBits32) ∧
   opcodeTable.lookup 104 = some (.twoRegisters .leadingZeroBits64) ∧
   opcodeTable.lookup 105 = some (.twoRegisters .leadingZeroBits32) ∧
   opcodeTable.lookup 106 = some (.twoRegisters .trailingZeroBits64) ∧
   opcodeTable.lookup 107 = some (.twoRegisters .trailingZeroBits32)) ∧
  ∀ (rD rA : Reg) (s : State),
    exec (.countSetBits64 rD rA) s =
      .next (s.wrote rD (fromSigned (∑ j ∈ Finset.range 64, s.uns rA / 2 ^ j % 2))) ∧
    exec (.countSetBits32 rD rA) s =
      .next (s.wrote rD (fromSigned (∑ j ∈ Finset.range 32, s.uns rA / 2 ^ j % 2))) ∧
    (∃ n : Nat, n ≤ 64 ∧ exec (.leadingZeroBits64 rD rA) s = .next (s.wrote rD (fromSigned n)) ∧
      (∀ j < n, (s.reg rA).getLsbD (63 - j) = false) ∧ (n < 64 → (s.reg rA).getLsbD (63 - n) = true)) ∧
    (∃ n : Nat, n ≤ 32 ∧ exec (.leadingZeroBits32 rD rA) s = .next (s.wrote rD (fromSigned n)) ∧
      (∀ j < n, (s.reg rA).getLsbD (31 - j) = false) ∧ (n < 32 → (s.reg rA).getLsbD (31 - n) = true)) ∧
    (∃ n : Nat, n ≤ 64 ∧ exec (.trailingZeroBits64 rD rA) s = .next (s.wrote rD (fromSigned n)) ∧
      (∀ j < n, (s.reg rA).getLsbD j = false) ∧ (n < 64 → (s.reg rA).getLsbD n = true)) ∧
    (∃ n : Nat, n ≤ 32 ∧ exec (.trailingZeroBits32 rD rA) s = .next (s.wrote rD (fromSigned n)) ∧
      (∀ j < n, (s.reg rA).getLsbD j = false) ∧ (n < 32 → (s.reg rA).getLsbD n = true))

/-- For every state and operands, SIGN_EXTEND_8, SIGN_EXTEND_16, ZERO_EXTEND_16 and REVERSE_BYTES answer the next state
with the destination holding the extended low part, or the value whose byte j is byte 7 - j of the source, and
nothing else changed but pc. Formalises R234, R235, R236, R237. -/
def Obligations.ExtensionReverseResults : Prop :=
  (opcodeTable.lookup 108 = some (.twoRegisters .signExtend8) ∧
   opcodeTable.lookup 109 = some (.twoRegisters .signExtend16) ∧
   opcodeTable.lookup 110 = some (.twoRegisters .zeroExtend16) ∧
   opcodeTable.lookup 111 = some (.twoRegisters .reverseBytes)) ∧
  ∀ (rD rA : Reg) (s : State),
    exec (.signExtend8 rD rA) s = .next (s.wrote rD (sext 8 (s.uns rA))) ∧
    exec (.signExtend16 rD rA) s = .next (s.wrote rD (sext 16 (s.uns rA))) ∧
    exec (.zeroExtend16 rD rA) s = .next (s.wrote rD (fromSigned (s.uns rA % 2 ^ 16))) ∧
    exec (.reverseBytes rD rA) s =
      .next (s.wrote rD (fromSigned (∑ j ∈ Finset.range 8, s.uns rA / 2 ^ (8 * (7 - j)) % 256 * 2 ^ (8 * j))))

/-- For every state and operands, each of the six set instructions answers the next state with the destination holding 1
if the relation holds between the unsigned or the signed 64-bit views (an immediate as the sign-extended 64-bit
value) and 0 if not, and nothing else changed but pc. Formalises R241, R242, R243, R244, R245, R246. -/
def Obligations.ComparisonResults : Prop :=
  (opcodeTable.lookup 216 = some (.threeRegisters .setLtU) ∧
   opcodeTable.lookup 217 = some (.threeRegisters .setLtS) ∧
   opcodeTable.lookup 136 = some (.twoRegistersOneImmediate .setLtUImm) ∧
   opcodeTable.lookup 137 = some (.twoRegistersOneImmediate .setLtSImm) ∧
   opcodeTable.lookup 142 = some (.twoRegistersOneImmediate .setGtUImm) ∧
   opcodeTable.lookup 143 = some (.twoRegistersOneImmediate .setGtSImm)) ∧
  ∀ (rD rA rB : Reg) (immX : Word) (s : State),
    exec (.setLtU rD rA rB) s = .next (s.wrote rD (if s.uns rA < s.uns rB then 1 else 0)) ∧
    exec (.setLtS rD rA rB) s = .next (s.wrote rD (if s.sgn rA < s.sgn rB then 1 else 0)) ∧
    exec (.setLtUImm rA rB immX) s = .next (s.wrote rA (if s.uns rB < (immX.toNat : Int) then 1 else 0)) ∧
    exec (.setLtSImm rA rB immX) s = .next (s.wrote rA (if s.sgn rB < sView 64 immX.toNat then 1 else 0)) ∧
    exec (.setGtUImm rA rB immX) s = .next (s.wrote rA (if s.uns rB > (immX.toNat : Int) then 1 else 0)) ∧
    exec (.setGtSImm rA rB immX) s = .next (s.wrote rA (if s.sgn rB > sView 64 immX.toNat then 1 else 0))

/-- For every state and operands, each of the seven move instructions answers the next state: the destination holds the
source or the immediate when the condition on the full 64 bits holds, every register is unchanged when it does not,
and pc advances by the length. Formalises R251, R252, R253, R254, R255. -/
def Obligations.MoveResults : Prop :=
  (opcodeTable.lookup 100 = some (.twoRegisters .moveReg) ∧
   opcodeTable.lookup 218 = some (.threeRegisters .cmovIz) ∧
   opcodeTable.lookup 219 = some (.threeRegisters .cmovNz) ∧
   opcodeTable.lookup 147 = some (.twoRegistersOneImmediate .cmovIzImm) ∧
   opcodeTable.lookup 148 = some (.twoRegistersOneImmediate .cmovNzImm) ∧
   opcodeTable.lookup 51 = some (.oneRegisterOneImmediate .loadImm) ∧
   opcodeTable.lookup 20 = some (.oneRegisterOneExtendedWidthImmediate .loadImm64)) ∧
  ∀ (rD rA rB : Reg) (immX : Word) (s : State),
    exec (.moveReg rD rA) s = .next (s.wrote rD (s.reg rA)) ∧
    exec (.cmovIz rD rA rB) s = .next (if s.uns rB = 0 then s.wrote rD (s.reg rA) else s.passed) ∧
    exec (.cmovNz rD rA rB) s = .next (if s.uns rB ≠ 0 then s.wrote rD (s.reg rA) else s.passed) ∧
    exec (.cmovIzImm rA rB immX) s = .next (if s.uns rB = 0 then s.wrote rA immX else s.passed) ∧
    exec (.cmovNzImm rA rB immX) s = .next (if s.uns rB ≠ 0 then s.wrote rA immX else s.passed) ∧
    exec (.loadImm rA immX) s = .next (s.wrote rA (immX)) ∧
    exec (.loadImm64 rA immX) s = .next (s.wrote rA (immX))

/-- For every state and operands, each of the seven direct loads reads its 1, 2, 4 or 8 bytes at immX mod 2^32 little-
endian and zero- or sign-extends them into rA. When every page of the range is Readable or Writable and the range
ends at or below 2^32 the next state is the destination written and pc advanced; otherwise the next state is PANIC
with nothing else changed. Formalises R261, R262, R263, R264, R265, R266, R267. -/
def Obligations.DirectLoadResults : Prop :=
  (opcodeTable.lookup 52 = some (.oneRegisterOneImmediate .loadU8) ∧
   opcodeTable.lookup 53 = some (.oneRegisterOneImmediate .loadI8) ∧
   opcodeTable.lookup 54 = some (.oneRegisterOneImmediate .loadU16) ∧
   opcodeTable.lookup 55 = some (.oneRegisterOneImmediate .loadI16) ∧
   opcodeTable.lookup 56 = some (.oneRegisterOneImmediate .loadU32) ∧
   opcodeTable.lookup 57 = some (.oneRegisterOneImmediate .loadI32) ∧
   opcodeTable.lookup 58 = some (.oneRegisterOneImmediate .loadU64)) ∧
  ∀ (rA : Reg) (immX : Word) (s : State),
    let a := directAddr immX
    a = immX.toNat % 2 ^ 32 ∧
    LoadsFrom (.loadU8 rA immX) s rA a 1 (fromSigned (s.mem.leSum a 1)) ∧
    LoadsFrom (.loadI8 rA immX) s rA a 1 (sext 8 (s.mem.leSum a 1)) ∧
    LoadsFrom (.loadU16 rA immX) s rA a 2 (fromSigned (s.mem.leSum a 2)) ∧
    LoadsFrom (.loadI16 rA immX) s rA a 2 (sext 16 (s.mem.leSum a 2)) ∧
    LoadsFrom (.loadU32 rA immX) s rA a 4 (fromSigned (s.mem.leSum a 4)) ∧
    LoadsFrom (.loadI32 rA immX) s rA a 4 (sext 32 (s.mem.leSum a 4)) ∧
    LoadsFrom (.loadU64 rA immX) s rA a 8 (fromSigned (s.mem.leSum a 8))

/-- For every state and operands (rA equal to rB included), each of the seven indirect loads reads its bytes at (x[rB] +
immX) mod 2^32 and extends them into rA. When every page of the range is Readable or Writable and the range ends at
or below 2^32 the next state is the destination written and pc advanced; otherwise the next state is PANIC with
nothing else changed. Formalises R268, R269, R270, R271, R272, R273, R274. -/
def Obligations.IndirectLoadResults : Prop :=
  (opcodeTable.lookup 124 = some (.twoRegistersOneImmediate .loadIndU8) ∧
   opcodeTable.lookup 125 = some (.twoRegistersOneImmediate .loadIndI8) ∧
   opcodeTable.lookup 126 = some (.twoRegistersOneImmediate .loadIndU16) ∧
   opcodeTable.lookup 127 = some (.twoRegistersOneImmediate .loadIndI16) ∧
   opcodeTable.lookup 128 = some (.twoRegistersOneImmediate .loadIndU32) ∧
   opcodeTable.lookup 129 = some (.twoRegistersOneImmediate .loadIndI32) ∧
   opcodeTable.lookup 130 = some (.twoRegistersOneImmediate .loadIndU64)) ∧
  ∀ (rA rB : Reg) (immX : Word) (s : State),
    let a := indirectAddr (s.reg rB) immX
    a = ((s.reg rB).toNat + immX.toNat) % 2 ^ 32 ∧
    LoadsFrom (.loadIndU8 rA rB immX) s rA a 1 (fromSigned (s.mem.leSum a 1)) ∧
    LoadsFrom (.loadIndI8 rA rB immX) s rA a 1 (sext 8 (s.mem.leSum a 1)) ∧
    LoadsFrom (.loadIndU16 rA rB immX) s rA a 2 (fromSigned (s.mem.leSum a 2)) ∧
    LoadsFrom (.loadIndI16 rA rB immX) s rA a 2 (sext 16 (s.mem.leSum a 2)) ∧
    LoadsFrom (.loadIndU32 rA rB immX) s rA a 4 (fromSigned (s.mem.leSum a 4)) ∧
    LoadsFrom (.loadIndI32 rA rB immX) s rA a 4 (sext 32 (s.mem.leSum a 4)) ∧
    LoadsFrom (.loadIndU64 rA rB immX) s rA a 8 (fromSigned (s.mem.leSum a 8))

/-- For every state whose memory is in canonical form and all operands, each of the eight register stores writes its 1,
2, 4 or 8 bytes at directAddr immX = immX mod 2^32 or indirectAddr (x[rB]) immX = (x[rB] + immX) mod 2^32. When
every page of the range is Writable and the range ends at or below 2^32, the next state has the low bytes of the
value stored little-endian there, every other byte, page state, register and heap value as before, and pc advanced;
otherwise the next state is PANIC with no byte changed. Formalises R281, R282, R283, R284, R285, R286, R287, R288. -/
def Obligations.RegisterStoreResults : Prop :=
  (opcodeTable.lookup 59 = some (.oneRegisterOneImmediate .storeU8) ∧
   opcodeTable.lookup 60 = some (.oneRegisterOneImmediate .storeU16) ∧
   opcodeTable.lookup 61 = some (.oneRegisterOneImmediate .storeU32) ∧
   opcodeTable.lookup 62 = some (.oneRegisterOneImmediate .storeU64) ∧
   opcodeTable.lookup 120 = some (.twoRegistersOneImmediate .storeIndU8) ∧
   opcodeTable.lookup 121 = some (.twoRegistersOneImmediate .storeIndU16) ∧
   opcodeTable.lookup 122 = some (.twoRegistersOneImmediate .storeIndU32) ∧
   opcodeTable.lookup 123 = some (.twoRegistersOneImmediate .storeIndU64)) ∧
  ∀ (rA rB : Reg) (immX : Word) (s : State), s.mem.wf →
    directAddr immX = immX.toNat % 2 ^ 32 ∧
    indirectAddr (s.reg rB) immX = ((s.reg rB).toNat + immX.toNat) % 2 ^ 32 ∧
    StoresTo (.storeU8 rA immX) s (directAddr immX) 1 (s.reg rA) ∧
    StoresTo (.storeU16 rA immX) s (directAddr immX) 2 (s.reg rA) ∧
    StoresTo (.storeU32 rA immX) s (directAddr immX) 4 (s.reg rA) ∧
    StoresTo (.storeU64 rA immX) s (directAddr immX) 8 (s.reg rA) ∧
    StoresTo (.storeIndU8 rA rB immX) s (indirectAddr (s.reg rB) immX) 1 (s.reg rA) ∧
    StoresTo (.storeIndU16 rA rB immX) s (indirectAddr (s.reg rB) immX) 2 (s.reg rA) ∧
    StoresTo (.storeIndU32 rA rB immX) s (indirectAddr (s.reg rB) immX) 4 (s.reg rA) ∧
    StoresTo (.storeIndU64 rA rB immX) s (indirectAddr (s.reg rB) immX) 8 (s.reg rA)

/-- For every state whose memory is in canonical form and all operands, each of the eight immediate stores writes the
low 1, 2, 4 or 8 bytes of the 64-bit immY at directAddr immX = immX mod 2^32 or indirectAddr (x[rA]) immX = (x[rA] +
immX) mod 2^32. When every page of the range is Writable and the range ends at or below 2^32, the next state has the
low bytes of the value stored little-endian there, every other byte, page state, register and heap value as before,
and pc advanced; otherwise the next state is PANIC with no byte changed. Formalises R289, R290, R291, R292, R293,
R294, R295, R296. -/
def Obligations.ImmediateStoreResults : Prop :=
  (opcodeTable.lookup 30 = some (.twoImmediates .storeImmU8) ∧
   opcodeTable.lookup 31 = some (.twoImmediates .storeImmU16) ∧
   opcodeTable.lookup 32 = some (.twoImmediates .storeImmU32) ∧
   opcodeTable.lookup 33 = some (.twoImmediates .storeImmU64) ∧
   opcodeTable.lookup 70 = some (.oneRegisterTwoImmediates .storeImmIndU8) ∧
   opcodeTable.lookup 71 = some (.oneRegisterTwoImmediates .storeImmIndU16) ∧
   opcodeTable.lookup 72 = some (.oneRegisterTwoImmediates .storeImmIndU32) ∧
   opcodeTable.lookup 73 = some (.oneRegisterTwoImmediates .storeImmIndU64)) ∧
  ∀ (rA : Reg) (immX immY : Word) (s : State), s.mem.wf →
    directAddr immX = immX.toNat % 2 ^ 32 ∧
    indirectAddr (s.reg rA) immX = ((s.reg rA).toNat + immX.toNat) % 2 ^ 32 ∧
    StoresTo (.storeImmU8 immX immY) s (directAddr immX) 1 immY ∧
    StoresTo (.storeImmU16 immX immY) s (directAddr immX) 2 immY ∧
    StoresTo (.storeImmU32 immX immY) s (directAddr immX) 4 immY ∧
    StoresTo (.storeImmU64 immX immY) s (directAddr immX) 8 immY ∧
    StoresTo (.storeImmIndU8 rA immX immY) s (indirectAddr (s.reg rA) immX) 1 immY ∧
    StoresTo (.storeImmIndU16 rA immX immY) s (indirectAddr (s.reg rA) immX) 2 immY ∧
    StoresTo (.storeImmIndU32 rA immX immY) s (indirectAddr (s.reg rA) immX) 4 immY ∧
    StoresTo (.storeImmIndU64 rA immX immY) s (indirectAddr (s.reg rA) immX) 8 immY

/-- For every state with a loadable image and all operands, JUMP and each of the six register branches does branch(pc +
offX, cond) with the named 64-bit comparison. Not taken, pc advances whatever the target; taken to a basic-block
start inside the code, pc is the target, the offset added to the pc of the branch itself and not reduced; taken
elsewhere, PANIC; no register or byte changes. Formalises R300, R302, R303, R304, R305, R306, R307, R308. -/
def Obligations.JumpAndRegisterBranchResults : Prop :=
  (opcodeTable.lookup 40 = some (.oneOffset .jump) ∧
   opcodeTable.lookup 170 = some (.twoRegistersOneOffset .branchEq) ∧
   opcodeTable.lookup 171 = some (.twoRegistersOneOffset .branchNe) ∧
   opcodeTable.lookup 172 = some (.twoRegistersOneOffset .branchLtU) ∧
   opcodeTable.lookup 173 = some (.twoRegistersOneOffset .branchLtS) ∧
   opcodeTable.lookup 174 = some (.twoRegistersOneOffset .branchGeU) ∧
   opcodeTable.lookup 175 = some (.twoRegistersOneOffset .branchGeS)) ∧
  ∀ (rA rB : Reg) (offX : Int) (s : State), s.image.wf = true →
    BranchesTo (.jump offX) s s (s.pc.toNat + offX) (True) ∧
    BranchesTo (.branchEq rA rB offX) s s (s.pc.toNat + offX) (s.uns rA = s.uns rB) ∧
    BranchesTo (.branchNe rA rB offX) s s (s.pc.toNat + offX) (s.uns rA ≠ s.uns rB) ∧
    BranchesTo (.branchLtU rA rB offX) s s (s.pc.toNat + offX) (s.uns rA < s.uns rB) ∧
    BranchesTo (.branchLtS rA rB offX) s s (s.pc.toNat + offX) (s.sgn rA < s.sgn rB) ∧
    BranchesTo (.branchGeU rA rB offX) s s (s.pc.toNat + offX) (s.uns rA ≥ s.uns rB) ∧
    BranchesTo (.branchGeS rA rB offX) s s (s.pc.toNat + offX) (s.sgn rA ≥ s.sgn rB)

/-- For every state with a loadable image and all operands, each of the ten immediate branches does branch(pc + offY,
cond) with x[rA] on the left and the 64-bit immX on the right of the named comparison. Not taken, pc advances
whatever the target; taken to a basic-block start inside the code, pc is the target, the offset added to the pc of
the branch itself and not reduced; taken elsewhere, PANIC; no register or byte changes. Formalises R309, R310, R311,
R312, R313, R314, R315, R316, R317, R318. -/
def Obligations.ImmediateBranchResults : Prop :=
  (opcodeTable.lookup 81 = some (.oneRegisterOneImmediateOneOffset .branchEqImm) ∧
   opcodeTable.lookup 82 = some (.oneRegisterOneImmediateOneOffset .branchNeImm) ∧
   opcodeTable.lookup 83 = some (.oneRegisterOneImmediateOneOffset .branchLtUImm) ∧
   opcodeTable.lookup 84 = some (.oneRegisterOneImmediateOneOffset .branchLeUImm) ∧
   opcodeTable.lookup 85 = some (.oneRegisterOneImmediateOneOffset .branchGeUImm) ∧
   opcodeTable.lookup 86 = some (.oneRegisterOneImmediateOneOffset .branchGtUImm) ∧
   opcodeTable.lookup 87 = some (.oneRegisterOneImmediateOneOffset .branchLtSImm) ∧
   opcodeTable.lookup 88 = some (.oneRegisterOneImmediateOneOffset .branchLeSImm) ∧
   opcodeTable.lookup 89 = some (.oneRegisterOneImmediateOneOffset .branchGeSImm) ∧
   opcodeTable.lookup 90 = some (.oneRegisterOneImmediateOneOffset .branchGtSImm)) ∧
  ∀ (rA : Reg) (immX : Word) (offY : Int) (s : State), s.image.wf = true →
    BranchesTo (.branchEqImm rA immX offY) s s (s.pc.toNat + offY) (s.uns rA = (immX.toNat : Int)) ∧
    BranchesTo (.branchNeImm rA immX offY) s s (s.pc.toNat + offY) (s.uns rA ≠ (immX.toNat : Int)) ∧
    BranchesTo (.branchLtUImm rA immX offY) s s (s.pc.toNat + offY) (s.uns rA < (immX.toNat : Int)) ∧
    BranchesTo (.branchLeUImm rA immX offY) s s (s.pc.toNat + offY) (s.uns rA ≤ (immX.toNat : Int)) ∧
    BranchesTo (.branchGeUImm rA immX offY) s s (s.pc.toNat + offY) (s.uns rA ≥ (immX.toNat : Int)) ∧
    BranchesTo (.branchGtUImm rA immX offY) s s (s.pc.toNat + offY) (s.uns rA > (immX.toNat : Int)) ∧
    BranchesTo (.branchLtSImm rA immX offY) s s (s.pc.toNat + offY) (s.sgn rA < sView 64 immX.toNat) ∧
    BranchesTo (.branchLeSImm rA immX offY) s s (s.pc.toNat + offY) (s.sgn rA ≤ sView 64 immX.toNat) ∧
    BranchesTo (.branchGeSImm rA immX offY) s s (s.pc.toNat + offY) (s.sgn rA ≥ sView 64 immX.toNat) ∧
    BranchesTo (.branchGtSImm rA immX offY) s s (s.pc.toNat + offY) (s.sgn rA > sView 64 immX.toNat)

/-- For every state with a loadable image and all operands: LOAD_IMM_JUMP writes immX and then does branch(pc + offY,
true); JUMP_IND does djump((x[rA] + immX) mod 2^32); LOAD_IMM_JUMP_IND takes its address from the old x[rB], writes
immX to rA, then does djump. djump panics at 0, halts at EXIT_ADDR, goes to an address that is a multiple of
JUMP_ALIGN, in J, inside the code and a block start, and panics otherwise; the link write stays in every case.
Formalises R301, R319, R320, R321. -/
def Obligations.CallAndDynamicJumpResults : Prop :=
  (opcodeTable.lookup 80 = some (.oneRegisterOneImmediateOneOffset .loadImmJump) ∧
   opcodeTable.lookup 50 = some (.oneRegisterOneImmediate .jumpInd) ∧
   opcodeTable.lookup 180 = some (.twoRegistersTwoImmediates .loadImmJumpInd)) ∧
  ∀ (rA rB : Reg) (immX immY : Word) (offY : Int) (s : State), s.image.wf = true →
    BranchesTo (.loadImmJump rA immX offY) s (s.setReg rA immX) (s.pc.toNat + offY) True ∧
    JumpsTo (.jumpInd rA immX) s s (((s.reg rA).toNat + immX.toNat) % 2 ^ 32) ∧
    JumpsTo (.loadImmJumpInd rA rB immX immY) s (s.setReg rA immX) (((s.reg rB).toNat + immY.toNat) % 2 ^ 32)

/-- For every state: TRAP answers PANIC with nothing else changed; FALLTHROUGH answers pc advanced and nothing else
changed, and is in T; ECALLI answers the status HOST(immX) with resumePc the offset of the next instruction, pc on
the ECALLI and nothing else changed, and is not in T. Formalises R331. -/
def Obligations.SystemResults : Prop :=
  (opcodeTable.lookup 0 = some (.noArguments .trap) ∧
   opcodeTable.lookup 1 = some (.noArguments .fallthrough) ∧
   opcodeTable.lookup 10 = some (.oneImmediate .ecalli)) ∧
  isTerminator 0 = true ∧ isTerminator 1 = true ∧ isTerminator 10 = false ∧
  ∀ (immX : Word) (s : State),
    exec .trap s = .next (s.stopped .panic) ∧
    exec .fallthrough s = .next s.passed ∧
    exec (.ecalli immX) s = .next { s with status := .host immX, resumePc := s.nextPc }

/-- For every well-formed instruction, with every operand at every value the encoding admits, decoding its encoding
followed by any bytes, with the number of operand bytes the encoding has, gives that instruction: no bit of an
operand is dropped. Derived from 30_encoding.md. -/
def Obligations.EncodeThenDecode : Prop :=
  ∀ i : Instr, i.wf = true → ∀ rest : List Byte, decode (encode i ++ rest) ((encode i).length - 1) = .ok i

/-- For every well-formed instruction placed between any code bytes, marked at its first byte only and followed by the
end of the code or a marked byte, the decoder at its offset reads that instruction and the length rule gives its own
length. Derived from 30_encoding.md. -/
def Obligations.EncodedInstructionInImage : Prop :=
  ∀ (i : Instr) (before after : List Byte) (marksBefore marksAfter : List Bool),
    i.wf = true → marksBefore.length = before.length → marksAfter.head?.getD true = true →
    let p : Image :=
      { code := before ++ encode i ++ after
        mask := marksBefore ++ (true :: List.replicate ((encode i).length - 1) false) ++ marksAfter }
    decodeAt p before.length = .ok i ∧ 1 + skip p.mask before.length = (encode i).length

/-- Fourteen byte strings of section 8 of the encoding file decode to the instructions listed beside them. Derived from
30_encoding.md. -/
def Obligations.WrittenWordsDecode : Prop :=
  decode [0xBE, 0x10, 0x02] 2 = .ok (.add32 2 0 1) ∧
  decode [0x33, 0x03, 0xFF] 2 = .ok (.loadImm 3 0xFFFFFFFFFFFFFFFF) ∧
  decode [0x33, 0x03] 1 = .ok (.loadImm 3 0) ∧
  decode [0x33, 0x03, 0x78, 0x56, 0x34, 0x12] 5 = .ok (.loadImm 3 0x12345678) ∧
  decode [0x14, 0x05, 0x88, 0x77, 0x66, 0x55, 0x44, 0x33, 0x22, 0x11] 9 = .ok (.loadImm64 5 0x1122334455667788) ∧
  decode [0x1E, 0x03, 0x00, 0x00, 0x02, 0x5A] 5 = .ok (.storeImmU8 0x20000 0x5A) ∧
  decode [0x47, 0x11, 0x08, 0x34, 0x12] 4 = .ok (.storeImmIndU16 1 8 0x1234) ∧
  decode [0x51, 0x10, 0x05, 0x06] 3 = .ok (.branchEqImm 0 5 6) ∧
  decode [0xAB, 0x21, 0xF9] 2 = .ok (.branchNe 1 2 (-7)) ∧
  decode [0x28, 0x03] 1 = .ok (.jump 3) ∧
  decode [0x32, 0x00] 1 = .ok (.jumpInd 0 0) ∧
  decode [0xB4, 0x10, 0x01, 0x07, 0x02] 4 = .ok (.loadImmJumpInd 0 1 7 2) ∧
  decode [0x0A, 0x0A] 1 = .ok (.ecalli 10) ∧
  decode [0x64, 0x21] 1 = .ok (.moveReg 1 2)

/-- For every mask and offset, skip is min(24, j) for the least j with the extended mask set at i + 1 + j; and in a
loadable image, at a pc inside the code, the next sequential offset is pc + 1 + skip(pc), with no wrap. Formalises
R104. -/
def Obligations.InstructionLength : Prop :=
  (∀ (k : List Bool) (i : Nat),
    skip k i ≤ 24 ∧ (∀ j < skip k i, k.getD (i + 1 + j) true = false) ∧
    (skip k i < 24 → k.getD (i + 1 + skip k i) true = true)) ∧
  ∀ s : State, s.image.wf = true → s.pc.toNat < s.image.code.length →
    s.instrLen = 1 + skip s.image.mask s.pc.toNat ∧
    s.nextPc.toNat = s.pc.toNat + 1 + skip s.image.mask s.pc.toNat

/-- For every opcode byte, operand bytes and length, the decoder gives an instruction of that opcode if the byte is one
of the 138 assigned, and otherwise answers that this byte is unassigned; 101 is not assigned; no bytes at all is a
fetch with no opcode. Derived from 30_encoding.md. -/
def Obligations.AssignedOpcodesDecode : Prop :=
  assignedOpcodes.length = 138 ∧ 101 ∉ assignedOpcodes ∧ (∀ L, decode [] L = .error .unmapped) ∧
  ∀ (op : Byte) (operands : List Byte) (L : Nat),
    (op.toNat ∈ assignedOpcodes → ∃ i, decode (op :: operands) L = .ok i ∧ i.opcode = op.toNat) ∧
    (op.toNat ∉ assignedOpcodes → decode (op :: operands) L = .error (.unassigned op))

/-- For every byte string, offset and length from 0 to 8, the immediate is sext of the little-endian sum of its bytes (0
for no byte, the bytes themselves for 8), bytes past the end read as 0, and an offset is the signed 64-bit view of
it; a register field above 12 selects register 12. Formalises R106, R107. -/
def Obligations.ImmediateValue : Prop :=
  (∀ (bytes : List Byte) (j n : Nat), n ≤ 8 →
    let v : Int := ∑ m ∈ Finset.range n, ((bytes[j + m]?.getD 0).toNat : Int) * 2 ^ (8 * m)
    immAt bytes j n = sext (8 * n) v ∧ offAt bytes j n = sView (8 * n) v ∧
    immAt bytes j 0 = 0 ∧ (n = 8 → immAt bytes j n = fromSigned v)) ∧
  ∀ n : Nat, (regOf n).val = min 12 n

/-- Whatever bytes and length are given, an instruction the decoder answers has immediates that stand for a sign-
extended value of at most 4 bytes and offsets in range: it is one the encoder can write. Derived from
30_encoding.md. -/
def Obligations.DecodedIsWellFormed : Prop :=
  ∀ (bytes : List Byte) (L : Nat) (i : Instr), decode bytes L = .ok i → i.wf = true

/-- For every image, offset i inside the code and row of the opcode map, the decoder at i makes the row of exactly the
fields its layout names: register fields from the nibbles of byte i + 1 (rD of the three-register shape from byte i
+ 2), immediates and offsets at their offsets with their lengths, read from the code with zero fill, L the number of
operand bytes. Derived from 30_encoding.md. -/
def Obligations.OperandLayouts : Prop :=
  ∀ (p : Image) (i : Nat) (op : Byte), p.code[i]? = some op →
    let byte := fun j => (p.code.getD (i + j) 0).toNat
    let imm := fun j n => immAt p.code (i + j) n
    let off := fun j n => (immAt p.code (i + j) n).toInt
    let L := skip p.mask i
    let loA := regOf (byte 1 % 16)
    let hiB := regOf (byte 1 / 16)
    let lTwo := min 4 (byte 1 % 8)
    let lOne := min 4 (byte 1 / 16 % 8)
    let lPair := min 4 (byte 2 % 8)
    ∀ row, opcodeTable.lookup op.toNat = some row →
      match row with
      | .noArguments j => decodeAt p i = .ok j
      | .oneImmediate f => decodeAt p i = .ok (f (imm 1 (min 4 L)))
      | .oneRegisterOneExtendedWidthImmediate f => decodeAt p i = .ok (f loA (imm 2 8))
      | .twoImmediates f => decodeAt p i = .ok (f (imm 2 lTwo) (imm (2 + lTwo) (min 4 (L - lTwo - 1))))
      | .oneOffset f => decodeAt p i = .ok (f (off 1 (min 4 L)))
      | .oneRegisterOneImmediate f => decodeAt p i = .ok (f loA (imm 2 (min 4 (L - 1))))
      | .oneRegisterTwoImmediates f =>
        decodeAt p i = .ok (f loA (imm 2 lOne) (imm (2 + lOne) (min 4 (L - lOne - 1))))
      | .oneRegisterOneImmediateOneOffset f =>
        decodeAt p i = .ok (f loA (imm 2 lOne) (off (2 + lOne) (min 4 (L - lOne - 1))))
      | .twoRegisters f => decodeAt p i = .ok (f loA hiB)
      | .twoRegistersOneImmediate f => decodeAt p i = .ok (f loA hiB (imm 2 (min 4 (L - 1))))
      | .twoRegistersOneOffset f => decodeAt p i = .ok (f loA hiB (off 2 (min 4 (L - 1))))
      | .twoRegistersTwoImmediates f =>
        decodeAt p i = .ok (f loA hiB (imm 3 lPair) (imm (3 + lPair) (min 4 (L - lPair - 2))))
      | .threeRegisters f => decodeAt p i = .ok (f (regOf (byte 2)) loA hiB)

/-- For every loadable image and offset, B is set exactly if the offset is in the code, marked, and is 0 or the end of a
marked instruction whose opcode is in T; T has the 22 opcodes the rule lists, ECALLI and the unassigned opcodes not
among them. Formalises R130, R131. -/
def Obligations.BasicBlockMap : Prop :=
  (∀ (p : Image) (o : Nat), p.wf = true →
    ((blockMap p).getD o false = true ↔
      o < p.code.length ∧ p.mask[o]? = some true ∧
      (o = 0 ∨ ∃ n < o, p.mask[n]? = some true ∧ n + 1 + skip p.mask n = o ∧
        ∃ op, p.code[n]? = some op ∧ op.toNat ∈ terminatorOpcodes))) ∧
  terminatorOpcodes.length = 22 ∧ 10 ∉ terminatorOpcodes ∧ (∀ op ∈ terminatorOpcodes, op ∈ assignedOpcodes) ∧
  (∀ op < 256, isTerminator op = true ↔ op ∈ terminatorOpcodes)

/-- For every memory, address, length and kind, the check succeeds exactly if the length is 0 or the range is inside the
address space and no page of it refuses; it answers OutOfBounds with the address and length exactly if the length is
not 0 and the range passes 2^32; it answers PageFault with the lowest page that is Absent, or Readable on a write,
otherwise. A zero-length access succeeds at every address and changes nothing. Formalises R66, R67, R68. -/
def Obligations.AccessCheckOutcome : Prop :=
  ∀ (m : Memory) (a n : Nat) (isWrite : Bool),
    let refuses := fun p => m.pageState p = .absent ∨ (m.pageState p = .readable ∧ isWrite = true)
    (m.check a n isWrite = .ok () ↔
      n = 0 ∨ (a + n ≤ 2 ^ 32 ∧ ∀ j < n, ¬refuses ((a + j) / 4096))) ∧
    (∀ a' n', m.check a n isWrite = .error (.outOfBounds a' n') ↔
      0 < n ∧ 2 ^ 32 < a + n ∧ a' = a ∧ n' = n) ∧
    (∀ p w, m.check a n isWrite = .error (.pageFault p w) ↔
      0 < n ∧ a + n ≤ 2 ^ 32 ∧ w = isWrite ∧ (∃ j < n, (a + j) / 4096 = p) ∧ refuses p ∧
      ∀ j < n, (a + j) / 4096 < p → ¬refuses ((a + j) / 4096)) ∧
    m.loadInto a 0 = .ok [] ∧ m.storeFrom a [] = .ok m

/-- For every memory in canonical form: when the check succeeds loadInto answers the bytes at the addresses of the range
in order, and storeFrom answers a memory in canonical form with the given bytes there and every other byte, page
state and heap value as before; when the check fails both answer its error and no memory. Formalises R65, R70. -/
def Obligations.AccessOperations : Prop :=
  ∀ (m : Memory) (a n : Nat) (bytes : List Byte), m.wf →
    (m.check a n false = .ok () → ∃ out, m.loadInto a n = .ok out ∧ out.length = n ∧
      ∀ j < n, out[j]? = some (m.byte (a + j))) ∧
    (∀ e, m.check a n false = .error e → m.loadInto a n = .error e) ∧
    (m.check a bytes.length true = .ok () → ∃ m', m.storeFrom a bytes = .ok m' ∧
      m.Wrote m' a bytes.length fun j => bytes[j]?.getD 0) ∧
    (∀ e, m.check a bytes.length true = .error e → m.storeFrom a bytes = .error e)

/-- For every memory in canonical form, after a successful storeFrom a loadInto of the same range gives the bytes
stored, and a byte outside the range reads as before. Formalises R81. -/
def Obligations.StoreThenLoadReturnsBytes : Prop :=
  ∀ (m m' : Memory) (a : Nat) (bytes : List Byte), m.wf → m.storeFrom a bytes = .ok m' →
    m'.loadInto a bytes.length = .ok bytes ∧ ∀ x, x < a ∨ a + bytes.length ≤ x → m'.byte x = m.byte x

/-- On an initialized instance getAllEncoded answers 104 bytes, byte 8i + j the byte j of register i; setAllEncoded of
104 bytes sets every register to its little-endian lane, changes nothing else, and getAllEncoded then returns those
bytes; any other length is refused as InvalidLength. Formalises R23. -/
def Obligations.RegisterSnapshot : Prop :=
  ∀ (s : State) (bytes : List Byte), s.life = .initialized →
    (∃ out, getAllEncoded s = .ok out ∧ out.length = 104 ∧ ∀ (r : Reg), ∀ j < 8,
      ∃ b, out[8 * r.val + j]? = some b ∧ (b.toNat : Int) = s.uns r / 2 ^ (8 * j) % 256) ∧
    (bytes.length = 104 → ∃ t, setAllEncoded bytes s = .next t ∧ t = { s with regs := t.regs } ∧
      (∀ r : Reg, t.uns r = ∑ j ∈ Finset.range 8, ((bytes[8 * r.val + j]?.getD 0).toNat : Int) * 2 ^ (8 * j)) ∧
      getAllEncoded t = .ok bytes) ∧
    (bytes.length ≠ 104 → setAllEncoded bytes s = .refused .invalidLength)

/-- On an initialized instance, for every register: getU64, getU32, getLowerI32 and getBytesAsLittleEndian of 1 to 8
bytes answer the lane, its low 32 bits unsigned and signed, and its low bytes; setU64 and setU32 write the value mod
2^64 and its low 32 bits sign-extended and change nothing else; an index above 12 is refused by every one of them.
Formalises R22. -/
def Obligations.RegisterAccessors : Prop :=
  ∀ (s : State) (v : Nat), s.life = .initialized →
    (∀ r : Reg,
      getU64 s r = .ok (s.reg r) ∧ (∃ w, getU32 s r = .ok w ∧ (w.toNat : Int) = s.uns r % 2 ^ 32) ∧
      getLowerI32 s r = .ok (sView 32 (s.uns r)) ∧
      (∀ n, 1 ≤ n → n ≤ 8 → ∃ out, getBytesAsLittleEndian s r n = .ok out ∧ out.length = n ∧ ∀ j < n,
        ∃ b, out[j]? = some b ∧ (b.toNat : Int) = s.uns r / 2 ^ (8 * j) % 256) ∧
      setU64 r v s = .next { s with regs := s.regs.set r (fromSigned ((v : Int) % 2 ^ 64)) } ∧
      setU32 r v s = .next { s with regs := s.regs.set r (sext 32 ((v : Int) % 2 ^ 32)) }) ∧
    ∀ i, 12 < i → getU64 s i = .error .registerIndex ∧ getU32 s i = .error .registerIndex ∧
      getLowerI32 s i = .error .registerIndex ∧ (∀ n, getBytesAsLittleEndian s i n = .error .registerIndex) ∧
      setU64 i v s = .refused .registerIndex ∧ setU32 i v s = .refused .registerIndex

/-- On an initialized instance in status OK whose gas covers the cost, when the bytes at pc decode to an instruction i,
the step is exec of i at the state with the cost taken from gas and nothing else changed; the step adds nothing
after exec. Derived from 60_exceptions.md. -/
def Obligations.StepRunsDecodedInstruction : Prop :=
  ∀ (s : State) (i : Instr), s.life = .initialized → s.status = .ok →
    decodeAt s.image s.pc.toNat = .ok i → (s.params.gasCost i.opcode : Int) ≤ s.gas.toInt →
    ∃ g : BitVec 64, g.toInt = s.gas.toInt - s.params.gasCost i.opcode ∧ step s = exec i { s with gas := g }

/-- On an initialized instance suspended at a host call, the step is the step of the state with pc the resume offset and
the status OK; where the gas covers the cost there and the bytes at the resume offset decode to i, it runs i.
Derived from 60_exceptions.md. -/
def Obligations.ResumeAfterHostCall : Prop :=
  ∀ (s : State) (c : Word), s.life = .initialized → s.status = .host c →
    step s = step { s with pc := s.resumePc, status := .ok } ∧
    ∀ i, decodeAt s.image s.resumePc.toNat = .ok i → (s.params.gasCost i.opcode : Int) ≤ s.gas.toInt →
      ∃ g : BitVec 64, g.toInt = s.gas.toInt - s.params.gasCost i.opcode ∧
        step s = exec i { s with pc := s.resumePc, status := .ok, gas := g }

/-- On an initialized instance with the status HALT, PANIC, OOG or FAULT, a step and a run of at least one step change
nothing, and every register or memory write of the host that completes leaves the status, pc and gas. That chargeGas
is refused then is the choice of the model (log 7, DEDUCED from U32 of 93_implementation_defined.md); the surface
table of 60_exceptions.md lists the operation without that refusal. Derived from 60_exceptions.md. -/
def Obligations.TerminalStatusIsSticky : Prop :=
  ∀ s : State, s.life = .initialized → s.status.terminal = true →
    step s = .next s ∧ (∀ n, runProgram (n + 1) s = some (.next s)) ∧
    (∀ cost, chargeGas cost s = .refused .notSuspended) ∧
    ∀ t, (∃ i v, setU64 i v s = .next t ∨ setU32 i v s = .next t) ∨ (∃ bytes, setAllEncoded bytes s = .next t) ∨
      (∃ a bytes, hostStoreFrom a bytes s = .next t) →
      t.status = s.status ∧ t.pc = s.pc ∧ t.gas = s.gas

/-- For every state and cost: when the gas would become negative the status becomes OOG and nothing else changes;
otherwise (a rest of exactly 0 included) the cost is taken and nothing else changes. A negative gas gives OOG at the
first step. The default cost of every opcode is 1. Derived from 60_exceptions.md, 00_scope.md. -/
def Obligations.GasCharge : Prop :=
  (∀ (s : State) (cost : Nat),
    (s.gas.toInt - cost < 0 → charge cost s = s.stopped .oog) ∧
    (0 ≤ s.gas.toInt - cost → ∃ g : BitVec 64, g.toInt = s.gas.toInt - cost ∧ charge cost s = { s with gas := g })) ∧
  (∀ s : State, s.life = .initialized → s.status = .ok → s.gas.toInt < 0 → step s = .next (s.stopped .oog)) ∧
  ∀ op, ({} : Params).gasCost op = 1

/-- On an initialized instance in status OK with pc at or past the end of the code and gas for the cost of TRAP, the
step takes that cost, sets the status FAULT(pc) and changes nothing else. Formalises R349. -/
def Obligations.FetchPastEndFaults : Prop :=
  ∀ s : State, s.life = .initialized → s.status = .ok → s.image.code.length ≤ s.pc.toNat →
    (s.params.gasCost 0 : Int) ≤ s.gas.toInt →
    ∃ g : BitVec 64, g.toInt = s.gas.toInt - s.params.gasCost 0 ∧
      step s = .next { s with gas := g, status := .fault s.pc }

/-- On an initialized instance in status OK whose opcode byte at pc is not assigned, with gas for the cost of TRAP, the
step takes that cost, sets the status PANIC and changes nothing else; the mask bit at pc plays no part; 101 is not
assigned. Formalises R333. -/
def Obligations.UnassignedOpcodePanics : Prop :=
  101 ∉ assignedOpcodes ∧
  ∀ (s : State) (op : Byte), s.life = .initialized → s.status = .ok → s.image.code[s.pc.toNat]? = some op →
    op.toNat ∉ assignedOpcodes → (s.params.gasCost 0 : Int) ≤ s.gas.toInt →
    ∃ g : BitVec 64, g.toInt = s.gas.toInt - s.params.gasCost 0 ∧
      step s = .next { s with gas := g, status := .panic }

/-- On an initialized instance in status OK whose gas is below the cost of what stands at pc (the opcode, or TRAP for an
unassigned opcode and for a fetch past the end), the step sets OOG and changes nothing else: neither the instruction
nor its PANIC, HALT, HOST nor FAULT happens. Derived from 60_exceptions.md. -/
def Obligations.OutOfGasWinsOverEverything : Prop :=
  ∀ s : State, s.life = .initialized → s.status = .ok → s.gas.toInt < s.costAt s.pc → step s = .next (s.stopped .oog)

/-- On an initialized instance every step answers a next state, never a fault or a refusal, whatever the image, memory
and registers hold; getStatus, getGas and getPC answer the status, the gas and the pc; hostLoadInto answers the
bytes or the typed error of loadInto; hostStoreFrom answers the state with the memory of storeFrom and nothing else
changed, or the typed error. On an uninitialized instance every operation but reset and destroy (the step, the run,
the three getters, every register accessor, the snapshot both ways, both memory accesses, the gas charge) is refused
as such. That a typed error is the outcome fault is the choice of the model (log 11). Derived from 60_exceptions.md,
70_reset_and_hazards.md, 20_memory.md. -/
def Obligations.StepIsTotal : Prop :=
  (∀ s : State, s.life = .initialized →
    (∃ t, step s = .next t ∧ t.life = .initialized) ∧
    getStatus s = .ok s.status ∧ getGas s = .ok s.gas.toInt ∧ getPC s = .ok s.pc ∧
    (∀ a n, hostLoadInto s a n = .ok (s.mem.loadInto a n)) ∧
    (∀ a bytes m, s.mem.storeFrom a bytes = .ok m → hostStoreFrom a bytes s = .next { s with mem := m }) ∧
    ∀ a bytes e, s.mem.storeFrom a bytes = .error e → hostStoreFrom a bytes s = .fault e) ∧
  ∀ s : State, s.life = .uninitialized → step s = .refused .uninitialized ∧
    (∀ n, runProgram (n + 1) s = some (.refused .uninitialized)) ∧
    getStatus s = .error .uninitialized ∧ getGas s = .error .uninitialized ∧ getPC s = .error .uninitialized ∧
    (∀ i, getU64 s i = .error .uninitialized ∧ getU32 s i = .error .uninitialized ∧
      getLowerI32 s i = .error .uninitialized ∧ ∀ n, getBytesAsLittleEndian s i n = .error .uninitialized) ∧
    (∀ i v, setU64 i v s = .refused .uninitialized ∧ setU32 i v s = .refused .uninitialized) ∧
    getAllEncoded s = .error .uninitialized ∧ (∀ bytes, setAllEncoded bytes s = .refused .uninitialized) ∧
    (∀ a n, hostLoadInto s a n = .error .uninitialized) ∧
    (∀ a bytes, hostStoreFrom a bytes s = .refused .uninitialized) ∧
    ∀ cost, chargeGas cost s = .refused .uninitialized

/-- The memory of the reset state is in canonical form, its image is loadable with its own basic-block map, the
alignment parameter is positive and the status records what it should; the empty image and the parameters of the
reset state are the choice of the model (log 1 and log 2). Derived from 10_state.md. -/
def Obligations.InvariantAtReset : Prop :=
  State.reset.Inv

/-- From every state that meets the invariant, a step that answers a next state gives one that meets it: memory in
canonical form with no content on an Absent page, the image loadable and the basic-block map its own, FAULT
recording a pc outside the code, HOST with the resume offset after the ECALLI at pc. Derived from 10_state.md,
20_memory.md, 30_encoding.md, 60_exceptions.md. -/
def Obligations.StepKeepsInvariant : Prop :=
  ∀ s t : State, s.Inv → step s = .next t → t.Inv

/-- For every state and every step that answers a next state, the code, mask, jump table, basic-block map, every page
state, the three heap values, the parameters and the lifecycle flag are as before. Derived from 10_state.md,
20_memory.md. -/
def Obligations.StepKeepsProgramAndPageStates : Prop :=
  ∀ s t : State, step s = .next t →
    t.image = s.image ∧ t.blocks = s.blocks ∧ (∀ p, t.mem.pageState p = s.mem.pageState p) ∧
    t.mem.heapStart = s.mem.heapStart ∧ t.mem.heapEnd = s.mem.heapEnd ∧ t.mem.sbrkIndex = s.mem.sbrkIndex ∧
    t.params = s.params ∧ t.life = s.life

/-- From every state whose memory is in canonical form, a byte that a step changes lies on a Writable page, and the
instruction the step ran is one of the store instructions; every other step leaves the whole memory as it was.
Derived from 10_state.md, 20_memory.md. -/
def Obligations.OnlyWritableBytesChange : Prop :=
  ∀ s t : State, s.mem.wf → step s = .next t →
    (∀ x, t.mem.byte x ≠ s.mem.byte x → s.mem.pageState (x / 4096) = .writable) ∧
    (t.mem ≠ s.mem → ∃ i, decodeAt s.image s.fetchPc.toNat = .ok i ∧
      i.opcode ∈ [30, 31, 32, 33, 59, 60, 61, 62, 70, 71, 72, 73, 120, 121, 122, 123])

/-- For every step that takes an instance from OK or HOST to a status other than OK: memory is unchanged, pc is on the
instruction that stopped, and every register is unchanged, except that LOAD_IMM_JUMP and LOAD_IMM_JUMP_IND have
written their link register when they end in PANIC or HALT; HALT comes from a dynamic jump and HOST(i) from an
ECALLI only, and FAULT from a pc outside the code. Derived from 60_exceptions.md, 47_control_flow.md. -/
def Obligations.ExceptionsArePrecise : Prop :=
  ∀ s t : State, s.status.terminal = false → step s = .next t → t.status ≠ .ok →
    t.mem = s.mem ∧ t.pc = s.fetchPc ∧
    (t.regs = s.regs ∨ ∃ (r : Reg) (v : Word), t.regs = s.regs.set r v ∧ (t.status = .panic ∨ t.status = .halt) ∧
      ((∃ off, decodeAt s.image s.fetchPc.toNat = .ok (.loadImmJump r v off)) ∨
        ∃ b y, decodeAt s.image s.fetchPc.toNat = .ok (.loadImmJumpInd r b v y))) ∧
    (t.status = .halt → (∃ r x, decodeAt s.image s.fetchPc.toNat = .ok (.jumpInd r x)) ∨
      ∃ r b v y, decodeAt s.image s.fetchPc.toNat = .ok (.loadImmJumpInd r b v y)) ∧
    (∀ c, t.status = .host c → decodeAt s.image s.fetchPc.toNat = .ok (.ecalli c)) ∧
    (∀ a, t.status = .fault a → a = s.fetchPc ∧ s.image.code.length ≤ s.fetchPc.toNat)

/-- From every state with a loadable image and its own block map, a step that ends in OK started inside the code and
leaves pc at the offset after the instruction it ran, or at a marked offset inside the code that is 0 or follows a
terminator. Derived from 10_state.md, 30_encoding.md, 47_control_flow.md. -/
def Obligations.ControlFlowIntegrity : Prop :=
  ∀ s t : State, s.ImageInv → step s = .next t → t.status = .ok →
    s.fetchPc.toNat < s.image.code.length ∧
    (t.pc.toNat = s.fetchPc.toNat + 1 + skip s.image.mask s.fetchPc.toNat ∨
      (t.pc.toNat < s.image.code.length ∧ s.image.mask[t.pc.toNat]? = some true ∧
        (t.pc = 0 ∨ ∃ n op, s.image.code[n]? = some op ∧ op.toNat ∈ terminatorOpcodes ∧
          s.image.mask[n]? = some true ∧ n + 1 + skip s.image.mask n = t.pc.toNat)))

/-- For every step from OK or HOST: either the gas is below the cost, the status becomes OOG and the gas is as before,
or the gas falls by exactly the cost; so the gas never rises, never becomes negative from a non-negative value, and
a step from a terminal status leaves it. Derived from 60_exceptions.md, 10_state.md. -/
def Obligations.GasAccounting : Prop :=
  ∀ s t : State, step s = .next t →
    (s.status.terminal = true → t = s) ∧
    (s.status.terminal = false →
      (s.gas.toInt < s.costAt s.fetchPc ∧ t.gas = s.gas ∧ t.status = .oog) ∨
      (s.costAt s.fetchPc ≤ s.gas.toInt ∧ t.gas.toInt = s.gas.toInt - s.costAt s.fetchPc ∧ t.status ≠ .oog)) ∧
    t.gas.toInt ≤ s.gas.toInt ∧ (0 ≤ s.gas.toInt → 0 ≤ t.gas.toInt)

/-- On an initialized instance whose opcodes all cost at least 1, a run from gas G ends after at most max(G, 0) + 1
steps; whatever the costs, a run that ends on an initialized instance ends in a status other than OK. The number of
steps given to runProgram is the choice of the model (log 5, DESIGN CHOICE): the loop of the spec has no bound.
Derived from 60_exceptions.md. -/
def Obligations.RunTerminates : Prop :=
  (∀ s : State, s.life = .initialized → (∀ op, 1 ≤ s.params.gasCost op) →
    ∃ t, runProgram (s.gas.toInt.toNat + 1) s = some (.next t) ∧ t.status ≠ .ok) ∧
  ∀ (n : Nat) (s : State) (r : Result), s.life = .initialized → runProgram n s = some r →
    ∃ t, r = .next t ∧ t.status ≠ .ok

/-- Two states that differ only in the heap values and, outside HOST, in the resume latch step to states that differ
only there; after an ECALLI the latch is the same in both. Derived from 10_state.md. -/
def Obligations.HeapValuesAndLatchAreUnseen : Prop :=
  ∀ (s t : State) (h1 h2 h3 : Nat) (latch : CodeAddr),
    (s.status.isHost = true → latch = s.resumePc) → step s = .next t →
    ∃ latch' : CodeAddr,
      step { s with resumePc := latch, mem := { s.mem with heapStart := h1, heapEnd := h2, sbrkIndex := h3 } } =
        .next { t with resumePc := latch', mem := { t.mem with heapStart := h1, heapEnd := h2, sbrkIndex := h3 } } ∧
      (t.status.isHost = true → latch' = t.resumePc)

/-- Replacing the jump table by one with the same members changes nothing a step does. Derived from 30_encoding.md. -/
def Obligations.JumpTableIsASet : Prop :=
  ∀ (s t : State) (J : List Nat), (∀ a, a ∈ J ↔ a ∈ s.image.jumpTable) → step s = .next t →
    step { s with image := { s.image with jumpTable := J } } =
      .next { t with image := { t.image with jumpTable := J } }

/-- A newly made instance is Uninitialized, and destroy leaves any instance, a destroyed one included, Uninitialized,
whatever its other fields are (free, log 10). For every parser, container, arguments and prior state, a destroyed or
newly made one included: when the parser is defined and the image passes the load checks, reset answers the state
with the status OK, Initialized, the pc, gas, registers and memory given (registers 0 and every page Absent when
omitted), the parsed image and its basic-block map; otherwise it is refused and the instance keeps its state. A
reset after destroy answers what a reset of the instance itself answers: nothing of the previous run survives.
Derived from 70_reset_and_hazards.md, 10_state.md. -/
def Obligations.ResetEffect : Prop :=
  ∀ (deblob : List Byte → Option Image) (code : List Byte) (pc : CodeAddr) (gas : BitVec 64)
    (regs : Option (Vector Word 13)) (mem : Option Memory) (u : Unspecified) (s : State),
    (∀ p, deblob code = some p → p.wf = true →
      ∃ t, hostResetBlob deblob code pc gas regs mem u s = .next t ∧ t.life = .initialized ∧ t.status = .ok ∧
        t.pc = pc ∧ t.gas = gas ∧ t.image = p ∧ t.blocks = blockMap p ∧ t.params = s.params ∧
        (∀ r, regs = some r → t.regs = r) ∧ (regs = none → ∀ r : Reg, t.reg r = 0) ∧
        (∀ m, mem = some m → t.mem = m) ∧
        (mem = none → (∀ p, t.mem.pageState p = .absent) ∧ t.mem.cells = [])) ∧
    (deblob code = none ∨ (∃ p, deblob code = some p ∧ p.wf = false) →
      hostResetBlob deblob code pc gas regs mem u s = .refused .malformedImage) ∧
    ∀ rest : State,
      (newInstance s.params rest).life = .uninitialized ∧ (newInstance s.params rest).params = s.params ∧
      (destroy rest s).life = .uninitialized ∧ (destroy rest s).params = s.params ∧
      hostResetBlob deblob code pc gas regs mem u (destroy rest s) =
        hostResetBlob deblob code pc gas regs mem u s ∧
      hostResetBlob deblob code pc gas regs mem u (newInstance s.params rest) =
        hostResetBlob deblob code pc gas regs mem u s

/-- A reset given a memory in canonical form, with a positive alignment parameter, answers a state that meets the
invariant, from any prior state; from a state that meets it, every register write, snapshot write, memory write and
gas charge of the host that completes gives one that meets it. That the canonical form of the memory given to reset
is a premise, and no check of reset, is the choice of the model (log 19, DESIGN CHOICE). Derived from
60_exceptions.md, 70_reset_and_hazards.md. -/
def Obligations.HostOperationsKeepInvariant : Prop :=
  (∀ p pc gas regs mem u (s t : State), 0 < s.params.jumpAlign → (∀ m, mem = some m → m.wf) →
    hostReset p pc gas regs mem u s = .next t → t.Inv) ∧
  ∀ s t : State, s.Inv →
    (∃ i v, setU64 i v s = .next t ∨ setU32 i v s = .next t) ∨ (∃ bytes, setAllEncoded bytes s = .next t) ∨
      (∃ a bytes, hostStoreFrom a bytes s = .next t) ∨ (∃ cost, chargeGas cost s = .next t) →
    t.Inv

/-- On an initialized instance suspended at a host call, chargeGas takes the whole cost and leaves the instance
suspended, or, when the gas would become negative, changes the status to OOG and nothing else, after which a step
changes nothing. Derived from 60_exceptions.md. -/
def Obligations.HostCallCharge : Prop :=
  ∀ (s : State) (c : Word) (cost : Nat), s.life = .initialized → s.status = .host c →
    (0 ≤ s.gas.toInt - cost → ∃ g : BitVec 64, g.toInt = s.gas.toInt - cost ∧
      chargeGas cost s = .next { s with gas := g }) ∧
    (s.gas.toInt - cost < 0 → chargeGas cost s = .next (s.stopped .oog) ∧
      step (s.stopped .oog) = .next (s.stopped .oog))

/-- For every builder whose memory is in canonical form, a page call is accepted exactly if start and end are multiples
of 4096 with start < end <= 2^32, the data fits and no page of the range is assigned; it then gives every page of
the range the state and the range the data followed by zeros, leaves every other page and byte, and keeps the
canonical form; finalize records the heap values, sets sbrkIndex to heapStart, and is refused exactly if a page of
the heap range is assigned; that it so accepts an unaligned, an empty and a reversed heap range is the choice of the
model (log 15, DEDUCED). Before any call every page is Absent. Derived from 20_memory.md. -/
def Obligations.BuilderPageCalls : Prop :=
  (∀ p, ({} : Builder).mem.pageState p = .absent) ∧
  ∀ (b : Builder) (start stop : Nat) (data : List Byte), b.mem.wf →
    let free := fun lo hi => ∀ x, lo ≤ x → x < hi → b.mem.pageState (x / 4096) = .absent
    let fits := start % 4096 = 0 ∧ stop % 4096 = 0 ∧ start < stop ∧ stop ≤ 2 ^ 32 ∧ data.length ≤ stop - start
    (∀ st, (st = .readable ∨ st = .writable) →
      (fits ∧ free start stop → ∃ b', b.setPages st start stop data = .ok b' ∧ b'.mem.wf ∧
        (∀ x, b'.mem.pageState (x / 4096) =
          if start ≤ x ∧ x < stop then st else b.mem.pageState (x / 4096)) ∧
        (∀ x, b'.mem.byte x = if start ≤ x ∧ x < stop then data[x - start]?.getD 0 else b.mem.byte x)) ∧
      (¬(fits ∧ free start stop) → b.setPages st start stop data = .error .builderMisuse)) ∧
    b.setReadablePages start stop data = b.setPages .readable start stop data ∧
    b.setWriteablePages start stop data = b.setPages .writable start stop data ∧
    (free start stop → b.finalize start stop =
      .ok { b.mem with heapStart := start, heapEnd := stop, sbrkIndex := start }) ∧
    (¬free start stop → b.finalize start stop = .error .builderMisuse)

/-- For every range of at most 2^32 bytes, its end is (start + length) mod 2^32, and a page number is among its pages
exactly if a byte of the range, its address reduced mod 2^32, lies on that page; after the last page comes page 0.
That length 0 is the empty range and length 2^32 the whole space, though both have start = end, and that a range
whose last byte lies on its own first page after the wrap lists that page again at the end, are choices of the model
(log 22, DESIGN CHOICE). Derived from 20_memory.md. -/
def Obligations.RangePagesWrap : Prop :=
  ∀ r : MemoryRange, r.length ≤ 2 ^ 32 →
    r.stop.toNat = (r.start.toNat + r.length) % 2 ^ 32 ∧
    (∀ p, p ∈ r.pages ↔ ∃ j < r.length, (r.start.toNat + j) % 2 ^ 32 / 4096 = p) ∧
    (∀ j p q, r.pages[j]? = some p → r.pages[j + 1]? = some q → q = (p + 1) % 2 ^ 20)

/-- For every blob and arguments the initializer accepts, the memory built of its segments is never refused, is in
canonical form, and its pages are Readable exactly in the read-only and argument segments, Writable exactly in the
heap and stack segments and Absent elsewhere, with the heap values the rules give, with the read-only data, heap
data and arguments at the start of their segments, and every other byte 0: the rest of each segment, the zero-filled
heap pages and the whole stack. That the memory is finalized from sbrkIndex on and heapStart set to H afterwards, so
that it is never refused and the three heap values stand, is the choice of the model (log 6, DEDUCED). Derived from
70_reset_and_hazards.md, 20_memory.md. -/
def Obligations.SpiMemoryLayout : Prop :=
  ∀ (blob args : List Byte) (prog : SpiProgram), spi blob args = .ok prog →
    ∃ (b : SpiBlob) (m : Memory), parseSpi blob = some b ∧ prog.memory = .ok m ∧ m.wf ∧
      let P := fun n => 4096 * ((n + 4095) / 4096)
      let H := 2 * 65536 + 65536 * ((b.readOnly.length + 65535) / 65536)
      let heapTop := H + P b.heap.length + b.heapPages * 4096
      let inside := fun lo n x => lo ≤ x ∧ x < lo + n
      (∀ x, m.pageState (x / 4096) =
        if inside 0x10000 (P b.readOnly.length) x ∨ inside 0xFEFF0000 (P args.length) x then .readable
        else if inside H (heapTop - H) x ∨ inside (0xFEFE0000 - P b.stack) (P b.stack) x then .writable
        else .absent) ∧
      (∀ j, j < b.readOnly.length → some (m.byte (0x10000 + j)) = b.readOnly[j]?) ∧
      (∀ j, j < b.heap.length → some (m.byte (H + j)) = b.heap[j]?) ∧
      (∀ j, j < args.length → some (m.byte (0xFEFF0000 + j)) = args[j]?) ∧
      (∀ x, ¬inside 0x10000 b.readOnly.length x → ¬inside H b.heap.length x → ¬inside 0xFEFF0000 args.length x →
        m.byte x = 0) ∧
      m.heapStart = H ∧ m.sbrkIndex = heapTop ∧ m.heapEnd = 0xFEFE0000 - P b.stack

/-- For every blob and arguments the initializer accepts, register 0 is 0xFFFF0000, register 1 the stack top 0xFEFE0000,
register 7 the argument start 0xFEFF0000, register 8 the number of argument bytes, and every other register 0. The
exit address that register 0 holds is also that of the parameters of the reset state, whose value there is the
choice of the model (log 1, DESIGN CHOICE): the default 0xFFFF0000 that 00_scope.md gives the open parameter.
Derived from 70_reset_and_hazards.md, 00_scope.md. -/
def Obligations.SpiRegisters : Prop :=
  State.reset.params.exitAddr = 0xFFFF0000#32 ∧
  ∀ (blob args : List Byte) (prog : SpiProgram), spi blob args = .ok prog →
    prog.registers[0] = 0xFFFF0000#64 ∧ prog.registers[1] = 0xFEFE0000#64 ∧ prog.registers[7] = 0xFEFF0000#64 ∧
    prog.registers[8].toNat = args.length ∧
    ∀ r : Reg, r ≠ 0 → r ≠ 1 → r ≠ 7 → r ≠ 8 → prog.registers[r] = 0#64

/-- For every blob and arguments, with the five length fields read little-endian at their offsets (the place of the last
after the read-only and heap data): the initializer accepts exactly if the blob has the length its fields require,
no byte left over, the arguments are at most 2^24 bytes and the layout fits in 2^32; it then hands on the container
bytes, and the fields of the blob are the bytes at their offsets; otherwise it is refused as InvalidLength. Derived
from 70_reset_and_hazards.md, 60_exceptions.md. -/
def Obligations.SpiBlobAcceptance : Prop :=
  ∀ blob args : List Byte,
    let field := fun i n => ∑ j ∈ Finset.range n, (blob[i + j]?.getD 0).toNat * 2 ^ (8 * j)
    let o := field 0 3
    let w := field 3 3
    let z := field 6 2
    let stack := field 8 3
    let c := field (11 + o + w) 4
    let Z := fun n => 65536 * ((n + 65535) / 65536)
    let accepted := blob.length = 15 + o + w + c ∧ args.length ≤ 2 ^ 24 ∧
      5 * 65536 + Z o + Z (w + z * 4096) + Z stack + 2 ^ 24 ≤ 2 ^ 32
    (accepted → ∃ prog b, spi blob args = .ok prog ∧ parseSpi blob = some b ∧
      prog.code = blob.drop (15 + o + w) ∧ prog.code.length = c ∧ b.code = prog.code ∧
      b.readOnly.length = o ∧ (∀ j < o, b.readOnly[j]? = blob[11 + j]?) ∧
      b.heap.length = w ∧ (∀ j < w, b.heap[j]? = blob[11 + o + j]?) ∧ b.heapPages = z ∧ b.stack = stack) ∧
    (¬accepted → spi blob args = .error .invalidLength)
end

