-- ==== Sys2Proof/Laws/Config.lean ====
section
/-! SUPPORT. The value of each field of the configuration of this machine, and the range of the gas counter. -/

namespace Sys2Proof

@[simp] theorem config_pageSize : config.pageSize = 4096 := rfl
@[simp] theorem config_maxSkip : config.maxSkip = 24 := rfl
@[simp] theorem config_maxCodeLen : config.maxCodeLen = 0xFFFFFFE6 := rfl
@[simp] theorem config_gasBits : config.gasBits = 64 := rfl
@[simp] theorem config_spiPage : config.spiPage = 4096 := rfl
@[simp] theorem config_spiZone : config.spiZone = 65536 := rfl
@[simp] theorem config_spiMaxData : config.spiMaxData = 0x1000000 := rfl
theorem maxPages_eq : maxPages = 0x100000 := rfl

/-- The gas counter's range (10_state.md R27). -/
theorem gas_bounds (g : Gas) : -2 ^ 63 ≤ g.toInt ∧ g.toInt < 2 ^ 63 :=
  ⟨BitVec.le_toInt (w := 64) g, BitVec.toInt_lt (w := 64) (x := g)⟩

theorem gas_toInt_ofInt {z : Int} (h0 : -2 ^ 63 ≤ z) (h1 : z < 2 ^ 63) :
    (BitVec.ofInt config.gasBits z).toInt = z := by
  show (BitVec.ofInt 64 z).toInt = z
  rw [BitVec.toInt_ofInt, Int.bmod_eq_of_le] <;> omega

end Sys2Proof
end

