-- ==== Sys2Proof/Laws/State.lean ====
section
/-! SUPPORT. What each update of the state leaves in each field, and the register file's read-over-write laws. -/

namespace Sys2Proof.Machine

/-! ### One lemma for each field and update -/

@[simp] theorem State.setReg_params (s : State) (r : Reg) (v : Word) : (s.setReg r v).params = s.params := rfl
@[simp] theorem State.setReg_life (s : State) (r : Reg) (v : Word) : (s.setReg r v).life = s.life := rfl
@[simp] theorem State.setReg_status (s : State) (r : Reg) (v : Word) : (s.setReg r v).status = s.status := rfl
@[simp] theorem State.setReg_pc (s : State) (r : Reg) (v : Word) : (s.setReg r v).pc = s.pc := rfl
@[simp] theorem State.setReg_gas (s : State) (r : Reg) (v : Word) : (s.setReg r v).gas = s.gas := rfl
@[simp] theorem State.setReg_regs (s : State) (r : Reg) (v : Word) : (s.setReg r v).regs = s.regs.set r v := rfl
@[simp] theorem State.setReg_resumePc (s : State) (r : Reg) (v : Word) : (s.setReg r v).resumePc = s.resumePc := rfl
@[simp] theorem State.setReg_mem (s : State) (r : Reg) (v : Word) : (s.setReg r v).mem = s.mem := rfl
@[simp] theorem State.setReg_image (s : State) (r : Reg) (v : Word) : (s.setReg r v).image = s.image := rfl
@[simp] theorem State.setReg_blocks (s : State) (r : Reg) (v : Word) : (s.setReg r v).blocks = s.blocks := rfl

@[simp] theorem State.advance_params (s : State) : (s.advance).params = s.params := rfl
@[simp] theorem State.advance_life (s : State) : (s.advance).life = s.life := rfl
@[simp] theorem State.advance_status (s : State) : (s.advance).status = s.status := rfl
@[simp] theorem State.advance_pc (s : State) : (s.advance).pc = s.nextPc := rfl
@[simp] theorem State.advance_gas (s : State) : (s.advance).gas = s.gas := rfl
@[simp] theorem State.advance_regs (s : State) : (s.advance).regs = s.regs := rfl
@[simp] theorem State.advance_resumePc (s : State) : (s.advance).resumePc = s.resumePc := rfl
@[simp] theorem State.advance_mem (s : State) : (s.advance).mem = s.mem := rfl
@[simp] theorem State.advance_image (s : State) : (s.advance).image = s.image := rfl
@[simp] theorem State.advance_blocks (s : State) : (s.advance).blocks = s.blocks := rfl

@[simp] theorem State.goTo_params (s : State) (t : CodeAddr) : (s.goTo t).params = s.params := rfl
@[simp] theorem State.goTo_life (s : State) (t : CodeAddr) : (s.goTo t).life = s.life := rfl
@[simp] theorem State.goTo_status (s : State) (t : CodeAddr) : (s.goTo t).status = s.status := rfl
@[simp] theorem State.goTo_pc (s : State) (t : CodeAddr) : (s.goTo t).pc = t := rfl
@[simp] theorem State.goTo_gas (s : State) (t : CodeAddr) : (s.goTo t).gas = s.gas := rfl
@[simp] theorem State.goTo_regs (s : State) (t : CodeAddr) : (s.goTo t).regs = s.regs := rfl
@[simp] theorem State.goTo_resumePc (s : State) (t : CodeAddr) : (s.goTo t).resumePc = s.resumePc := rfl
@[simp] theorem State.goTo_mem (s : State) (t : CodeAddr) : (s.goTo t).mem = s.mem := rfl
@[simp] theorem State.goTo_image (s : State) (t : CodeAddr) : (s.goTo t).image = s.image := rfl
@[simp] theorem State.goTo_blocks (s : State) (t : CodeAddr) : (s.goTo t).blocks = s.blocks := rfl

@[simp] theorem State.loadImage_params (s : State) (p : Image) : (s.loadImage p).params = s.params := rfl
@[simp] theorem State.loadImage_life (s : State) (p : Image) : (s.loadImage p).life = s.life := rfl
@[simp] theorem State.loadImage_status (s : State) (p : Image) : (s.loadImage p).status = s.status := rfl
@[simp] theorem State.loadImage_pc (s : State) (p : Image) : (s.loadImage p).pc = s.pc := rfl
@[simp] theorem State.loadImage_gas (s : State) (p : Image) : (s.loadImage p).gas = s.gas := rfl
@[simp] theorem State.loadImage_regs (s : State) (p : Image) : (s.loadImage p).regs = s.regs := rfl
@[simp] theorem State.loadImage_resumePc (s : State) (p : Image) : (s.loadImage p).resumePc = s.resumePc := rfl
@[simp] theorem State.loadImage_mem (s : State) (p : Image) : (s.loadImage p).mem = s.mem := rfl
@[simp] theorem State.loadImage_image (s : State) (p : Image) : (s.loadImage p).image = p := rfl
@[simp] theorem State.loadImage_blocks (s : State) (p : Image) : (s.loadImage p).blocks = blockMap p := rfl

/-! ### Registers -/

@[simp] theorem State.reg_setReg_self (s : State) (r : Reg) (v : Word) : (s.setReg r v).reg r = v := by
  simp [State.reg]

theorem State.reg_setReg_of_ne (s : State) {r q : Reg} (v : Word) (h : q ≠ r) :
    (s.setReg r v).reg q = s.reg q := by
  have h' : (r : Nat) ≠ q := fun e => h (Fin.ext e.symm)
  simp [State.reg, h']

theorem State.reg_setReg (s : State) (r q : Reg) (v : Word) :
    (s.setReg r v).reg q = if q = r then v else s.reg q := by
  by_cases h : q = r
  · subst h; simp
  · simp [h, State.reg_setReg_of_ne s v h]

@[simp] theorem State.reg_advance (s : State) (q : Reg) : s.advance.reg q = s.reg q := rfl
@[simp] theorem State.reg_goTo (s : State) (t : CodeAddr) (q : Reg) : (s.goTo t).reg q = s.reg q := rfl

/-! ### The next offset, the block map and the targets read the image and `pc` only -/

@[simp] theorem State.instrLen_setReg (s : State) (r : Reg) (v : Word) : (s.setReg r v).instrLen = s.instrLen := rfl
@[simp] theorem State.nextPc_setReg (s : State) (r : Reg) (v : Word) : (s.setReg r v).nextPc = s.nextPc := rfl
@[simp] theorem State.blockAt_setReg (s : State) (r : Reg) (v : Word) (o : Nat) :
    (s.setReg r v).blockAt o = s.blockAt o := rfl
@[simp] theorem State.legalTarget_setReg (s : State) (r : Reg) (v : Word) (t : Int) :
    (s.setReg r v).legalTarget t = s.legalTarget t := rfl
@[simp] theorem State.legalJump_setReg (s : State) (r : Reg) (v : Word) (a : BitVec 32) :
    (s.setReg r v).legalJump a = s.legalJump a := rfl
@[simp] theorem State.branchTarget_setReg (s : State) (r : Reg) (v : Word) (z : Int) :
    (s.setReg r v).branchTarget z = s.branchTarget z := rfl

end Sys2Proof.Machine
end

