-- ==== Sys2Proof/Laws/Memory.lean ====
section
/-! SUPPORT. The laws of the sparse maps and of the data memory: read over write, and the canonical form kept by
every memory operation. -/

namespace Sys2Proof.Machine

/-! ### Sparse maps -/

section Sparse
variable {α : Type} {d : α}

theorem sparseGet_eq_default {l : List (Nat × α)} {k : Nat} (h : ∀ x ∈ l, x.1 ≠ k) : sparseGet d l k = d := by
  induction l with
  | nil => rfl
  | cons x l ih =>
    obtain ⟨j, v⟩ := x
    have hj : j ≠ k := h (j, v) (by simp)
    simp [sparseGet, hj, ih fun y hy => h y (by simp [hy])]

theorem sparseGet_eq_of_mem {bound : Nat} {l : List (Nat × α)} (hl : SparseWf d bound l) {k : Nat} {v : α}
    (h : (k, v) ∈ l) : sparseGet d l k = v := by
  induction l with
  | nil => simp at h
  | cons x l ih =>
    obtain ⟨j, w⟩ := x
    obtain ⟨hp, hb⟩ := hl
    rw [List.pairwise_cons] at hp
    rcases List.mem_cons.mp h with h | h
    · cases h; simp [sparseGet]
    · have : j ≠ k := Nat.ne_of_lt (hp.1 _ h)
      simp [sparseGet, this, ih ⟨hp.2, fun y hy => hb y (by simp [hy])⟩ h]

theorem mem_sparse_of_get {l : List (Nat × α)} {k : Nat} (h : sparseGet d l k ≠ d) :
    (k, sparseGet d l k) ∈ l := by
  induction l with
  | nil => simp [sparseGet] at h
  | cons x l ih =>
    obtain ⟨j, w⟩ := x
    by_cases hj : j = k
    · subst hj; simp [sparseGet]
    · simp only [sparseGet, hj, if_false] at h ⊢
      exact List.mem_cons_of_mem _ (ih h)

variable [DecidableEq α]

theorem sparseSet_keys {l : List (Nat × α)} {k : Nat} {v : α} {x : Nat × α}
    (h : x ∈ sparseSet d l k v) : x ∈ l ∨ (x = (k, v) ∧ v ≠ d) := by
  induction l with
  | nil =>
    simp only [sparseSet] at h
    split at h
    · simp at h
    · exact .inr ⟨by simpa using h, ‹_›⟩
  | cons y l ih =>
    obtain ⟨j, w⟩ := y
    simp only [sparseSet] at h
    split_ifs at h with h1 h2 h3 h4
    · exact .inl h
    · rcases List.mem_cons.mp h with h | h
      · exact .inr ⟨h, h2⟩
      · exact .inl h
    · exact .inl (List.mem_cons_of_mem _ h)
    · rcases List.mem_cons.mp h with h | h
      · exact .inr ⟨h, h4⟩
      · exact .inl (List.mem_cons_of_mem _ h)
    · rcases List.mem_cons.mp h with h | h
      · exact .inl (by simp [h])
      · rcases ih h with h | h
        · exact .inl (List.mem_cons_of_mem _ h)
        · exact .inr h

/-- Writing keeps the canonical form. -/
theorem sparseSet_wf {bound : Nat} {l : List (Nat × α)} {k : Nat} {v : α} (hl : SparseWf d bound l)
    (hk : k < bound) : SparseWf d bound (sparseSet d l k v) := by
  refine ⟨?_, fun x hx => ?_⟩
  · induction l with
    | nil => simp only [sparseSet]; split <;> simp
    | cons y l ih =>
      obtain ⟨j, w⟩ := y
      obtain ⟨hp, hb⟩ := hl
      have hp' := hp
      rw [List.pairwise_cons] at hp
      have ih := ih ⟨hp.2, fun x hx => hb x (by simp [hx])⟩
      simp only [sparseSet]
      split_ifs with h1 h2 h3 h4
      · exact hp'
      · refine List.pairwise_cons.mpr ⟨fun x hx => ?_, hp'⟩
        rcases List.mem_cons.mp hx with hx | hx
        · simpa [hx] using h1
        · exact Nat.lt_trans h1 (hp.1 x hx)
      · exact hp.2
      · exact List.pairwise_cons.mpr ⟨fun x hx => by have := hp.1 x hx; simpa [h3] using this, hp.2⟩
      · refine List.pairwise_cons.mpr ⟨fun x hx => ?_, ih⟩
        rcases sparseSet_keys hx with hx | ⟨hx, -⟩
        · exact hp.1 x hx
        · simp only [hx]; omega
  · rcases sparseSet_keys hx with hx | ⟨hx, hv⟩
    · exact hl.2 x hx
    · simp [hx, hk, hv]

/-- Read over write. -/
theorem sparseGet_set {bound : Nat} {l : List (Nat × α)} (hl : SparseWf d bound l) (k : Nat) (v : α) (q : Nat) :
    sparseGet d (sparseSet d l k v) q = if q = k then v else sparseGet d l q := by
  induction l with
  | nil =>
    by_cases hv : v = d <;> by_cases hq : q = k
    · simp [sparseSet, sparseGet, hv]
    · simp [sparseSet, sparseGet, hv]
    · simp [sparseSet, sparseGet, hv, hq]
    · simp [sparseSet, sparseGet, hv, hq, Ne.symm hq]
  | cons y l ih =>
    obtain ⟨j, w⟩ := y
    obtain ⟨hp, hb⟩ := hl
    have hp' := hp
    rw [List.pairwise_cons] at hp
    have ih := ih ⟨hp.2, fun x hx => hb x (by simp [hx])⟩
    have absent : ∀ {k : Nat}, k ≤ j → sparseGet d l k = d := fun hk =>
      sparseGet_eq_default fun x hx => by have := hp.1 x hx; omega
    simp only [sparseSet]
    split_ifs with h1 h2 h3 h4 h5 h6 h7
    · subst h3
      simp [sparseGet, Nat.ne_of_gt h1, absent (Nat.le_of_lt h1), h2]
    · rfl
    · subst h4; simp [sparseGet]
    · simp [sparseGet, Ne.symm h4]
    · subst h6 h5 h7; simp [absent (Nat.le_refl _)]
    · subst h5; simp [sparseGet, Ne.symm h7]
    · subst h5; simp_all [sparseGet]
    · subst h5; simp_all [sparseGet, eq_comm]
    · rename_i hq
      subst hq
      simp [sparseGet, Ne.symm h5, ih]
    · rename_i hq
      simp [sparseGet, ih, hq]

end Sparse

/-! ### Bytes and pages -/

@[simp] theorem Memory.setByte_pages (m : Memory) (a : Nat) (b : Byte) : (m.setByte a b).pages = m.pages := rfl

@[simp] theorem Memory.setBytes_pages (m : Memory) (a : Nat) (bs : List Byte) :
    (m.setBytes a bs).pages = m.pages := by
  induction bs generalizing m a with
  | nil => rfl
  | cons b bs ih => simp [Memory.setBytes, ih]

theorem Memory.setBytes_heap (m : Memory) (a : Nat) (bs : List Byte) :
    (m.setBytes a bs).heapStart = m.heapStart ∧ (m.setBytes a bs).heapEnd = m.heapEnd ∧
      (m.setBytes a bs).sbrkIndex = m.sbrkIndex := by
  induction bs generalizing m a with
  | nil => exact ⟨rfl, rfl, rfl⟩
  | cons b bs ih => exact ih (m.setByte a b) (a + 1)

@[simp] theorem Memory.setByte_pageState (m : Memory) (a : Nat) (b : Byte) (p : Nat) :
    (m.setByte a b).pageState p = m.pageState p := rfl

@[simp] theorem Memory.setBytes_pageState (m : Memory) (a : Nat) (bs : List Byte) (p : Nat) :
    (m.setBytes a bs).pageState p = m.pageState p := by simp [Memory.pageState]

/-- A byte written at a mapped address keeps the canonical form. -/
theorem Memory.setByte_wf {m : Memory} (hm : m.wf) {a : Nat} {b : Byte} (ha : a < memorySize)
    (hp : m.pageState (a / config.pageSize) ≠ .absent) : (m.setByte a b).wf := by
  obtain ⟨h1, h2, h3⟩ := hm
  refine ⟨h1, sparseSet_wf h2 ha, fun c hc => ?_⟩
  rcases sparseSet_keys hc with hc | ⟨hc, -⟩
  · exact h3 c hc
  · subst hc; exact hp

/-- Bytes written at mapped addresses keep the canonical form. -/
theorem Memory.setBytes_wf {m : Memory} (hm : m.wf) {a : Nat} {bs : List Byte}
    (ha : a + bs.length ≤ memorySize)
    (hp : ∀ j < bs.length, m.pageState ((a + j) / config.pageSize) ≠ .absent) : (m.setBytes a bs).wf := by
  induction bs generalizing m a with
  | nil => exact hm
  | cons b bs ih =>
    simp only [List.length_cons] at ha hp
    refine ih (m := m.setByte a b) (a := a + 1) (Memory.setByte_wf hm (by omega) (by simpa using hp 0 (by omega)))
      (by omega) fun j hj => ?_
    have := hp (j + 1) (by omega)
    simpa [Memory.pageState, Nat.add_assoc, Nat.add_comm 1 j] using this

theorem Memory.byte_setByte {m : Memory} (hm : m.wf) (a : Nat) (b : Byte) (x : Nat) :
    (m.setByte a b).byte x = if x = a then b else m.byte x := sparseGet_set hm.2.1 a b x

/-- Every address outside the bytes written reads as before; the bytes written read as written. -/
theorem Memory.byte_setBytes {m : Memory} (hm : m.wf) {a : Nat} {bs : List Byte}
    (ha : a + bs.length ≤ memorySize)
    (hp : ∀ j < bs.length, m.pageState ((a + j) / config.pageSize) ≠ .absent) (x : Nat) :
    (m.setBytes a bs).byte x =
      if a ≤ x ∧ x < a + bs.length then bs.getD (x - a) 0 else m.byte x := by
  induction bs generalizing m a with
  | nil => simp [Memory.setBytes]
  | cons b bs ih =>
    simp only [List.length_cons] at ha hp
    have hm' := Memory.setByte_wf (b := b) hm (a := a) (by omega) (by simpa using hp 0 (by omega))
    have hp' : ∀ j < bs.length, (m.setByte a b).pageState ((a + 1 + j) / config.pageSize) ≠ .absent := fun j hj => by
      have := hp (j + 1) (by omega)
      simpa [Memory.pageState, Nat.add_assoc, Nat.add_comm 1 j] using this
    rw [Memory.setBytes, ih hm' (by omega) hp', Memory.byte_setByte hm]
    by_cases h1 : x = a
    · subst h1; simp
    · by_cases h2 : a + 1 ≤ x ∧ x < a + 1 + bs.length
      · have : x - a = (x - (a + 1)) + 1 := by omega
        have h3 : a ≤ x ∧ x < a + (b :: bs).length := by simp only [List.length_cons]; omega
        rw [if_pos h2, if_pos h3, this]
        simp
      · rw [if_neg h2, if_neg h1, if_neg (by simp only [List.length_cons]; omega)]

/-! ### The access check -/

/-- The pages the check walks are those of the bytes of the range. -/
theorem mem_pagesOf {a n p : Nat} (hn : 0 < n) :
    p ∈ pagesOf a n ↔ ∃ j < n, (a + j) / config.pageSize = p := by
  simp only [pagesOf, List.mem_range'_1]
  constructor
  · intro h
    by_cases hp : p = a / 4096
    · exact ⟨0, hn, by simp [hp]⟩
    · exact ⟨p * 4096 - a, by omega, by omega⟩
  · rintro ⟨j, hj, rfl⟩
    omega

/-- What the check answers when it succeeds: the range is in the address space and no byte's page refuses the
access. -/
theorem Memory.check_ok_iff (m : Memory) (a n : Nat) (w : Bool) :
    m.check a n w = .ok () ↔
      n = 0 ∨ (a + n ≤ memorySize ∧ ∀ j < n, m.denies w ((a + j) / config.pageSize) = false) := by
  unfold Memory.check
  by_cases hn : n = 0
  · simp [hn]
  · by_cases hb : memorySize < a + n
    · simp only [hn, hb, if_false, if_true, false_or]
      exact iff_of_false (by simp) (by omega)
    · simp only [hn, hb, if_false, false_or]
      have key : (pagesOf a n).find? (m.denies w) = none ↔ ∀ j < n, m.denies w ((a + j) / config.pageSize) = false := by
        simp only [List.find?_eq_none, mem_pagesOf (Nat.pos_of_ne_zero hn), Bool.not_eq_true]
        exact ⟨fun h j hj => h _ ⟨j, hj, rfl⟩, fun h p ⟨j, hj, e⟩ => e ▸ h j hj⟩
      cases hf : (pagesOf a n).find? (m.denies w) with
      | none => simpa using ⟨by omega, key.mp hf⟩
      | some p =>
        simp only [reduceCtorEq, false_iff, not_and]
        exact fun _ h => by simp [key.mpr h] at hf

@[simp] theorem Memory.denies_write (m : Memory) (p : Nat) :
    m.denies true p = false ↔ m.pageState p = .writable := by
  unfold Memory.denies; cases m.pageState p <;> simp

@[simp] theorem Memory.denies_read (m : Memory) (p : Nat) :
    m.denies false p = false ↔ m.pageState p ≠ .absent := by
  unfold Memory.denies; cases m.pageState p <;> simp

/-! ### The access operations -/

/-- What `storeFrom` can do when it succeeds. -/
theorem Memory.storeFrom_ok {m m' : Memory} {a : Nat} {bs : List Byte} (h : m.storeFrom a bs = .ok m') :
    m' = m.setBytes a bs ∧ (bs.length = 0 ∨
      (a + bs.length ≤ memorySize ∧ ∀ j < bs.length, m.pageState ((a + j) / config.pageSize) = .writable)) := by
  unfold Memory.storeFrom at h
  split at h
  · cases h
  · rename_i u hc
    cases h
    refine ⟨rfl, ?_⟩
    simpa using (m.check_ok_iff a bs.length true).mp hc

/-- `storeFrom` keeps the canonical form. -/
theorem Memory.storeFrom_wf {m m' : Memory} {a : Nat} {bs : List Byte} (hm : m.wf)
    (h : m.storeFrom a bs = .ok m') : m'.wf := by
  obtain ⟨rfl, h | ⟨h1, h2⟩⟩ := Memory.storeFrom_ok h
  · rw [List.length_eq_zero_iff.mp h]; exact hm
  · exact Memory.setBytes_wf hm h1 fun j hj => by simp [h2 j hj]

/-- `MemWrite` keeps the canonical form. -/
theorem Memory.write_wf {m m' : Memory} {a n : Nat} {v : Word} (hm : m.wf) (h : m.write a n v = .ok m') :
    m'.wf := Memory.storeFrom_wf hm h

/-- A successful store changes no page state. -/
theorem Memory.write_pages {m m' : Memory} {a n : Nat} {v : Word} (h : m.write a n v = .ok m') :
    m'.pages = m.pages := by
  obtain ⟨rfl, -⟩ := Memory.storeFrom_ok h; simp

/-- A successful store leaves the heap values. -/
theorem Memory.write_heap {m m' : Memory} {a n : Nat} {v : Word} (h : m.write a n v = .ok m') :
    m'.heapStart = m.heapStart ∧ m'.heapEnd = m.heapEnd ∧ m'.sbrkIndex = m.sbrkIndex := by
  obtain ⟨rfl, -⟩ := Memory.storeFrom_ok h; exact Memory.setBytes_heap ..

@[simp] theorem leBytes_length (n : Nat) (v : Word) : (leBytes n v).length = n := by simp [leBytes]

end Sys2Proof.Machine
end

