-- ==== Sys2Proof/Laws/Builder.lean ====
section
/-! SUPPORT. The memory builder keeps the canonical form, and what its page calls leave. -/

namespace Sys2Proof.Machine

theorem mem_pagesBetween {a b p : Nat} :
    p ∈ pagesBetween a b ↔ ∃ x, a ≤ x ∧ x < b ∧ x / config.pageSize = p := by
  unfold pagesBetween
  split
  · rw [mem_pagesOf (by omega)]
    constructor
    · rintro ⟨j, hj, rfl⟩; exact ⟨a + j, by omega, by omega, rfl⟩
    · rintro ⟨x, h1, h2, rfl⟩; exact ⟨x - a, by omega, by rw [Nat.add_sub_cancel' h1]⟩
  · simp only [List.not_mem_nil, false_iff]
    rintro ⟨x, h1, h2, -⟩; omega

theorem assign_sparse {bound : Nat} {st d : PageState} (ps : List Nat) (hps : ∀ p ∈ ps, p < bound)
    {l : List (Nat × PageState)} (hl : SparseWf d bound l) :
    SparseWf d bound (ps.foldl (fun l p => sparseSet d l p st) l) ∧
      ∀ q, sparseGet d (ps.foldl (fun l p => sparseSet d l p st) l) q = if q ∈ ps then st else sparseGet d l q := by
  induction ps generalizing l with
  | nil => exact ⟨hl, fun q => by simp⟩
  | cons p ps ih =>
    have hp : p < bound := hps p (by simp)
    obtain ⟨h1, h2⟩ := ih (fun q hq => hps q (by simp [hq])) (sparseSet_wf (k := p) (v := st) hl hp)
    refine ⟨h1, fun q => ?_⟩
    rw [List.foldl_cons, h2, sparseGet_set hl]
    by_cases hq : q ∈ ps
    · simp [hq]
    · by_cases hqp : q = p <;> simp [hq, hqp]

/-- What `assignPages` leaves. -/
theorem assignPages_pageState {m : Memory} (hm : m.wf) {st : PageState} {ps : List Nat}
    (hps : ∀ p ∈ ps, p < maxPages) (q : Nat) :
    (assignPages st m ps).pageState q = if q ∈ ps then st else m.pageState q :=
  (assign_sparse ps hps hm.1).2 q

theorem assignPages_wf {m : Memory} (hm : m.wf) {st : PageState} (hst : st ≠ .absent) {ps : List Nat}
    (hps : ∀ p ∈ ps, p < maxPages) : (assignPages st m ps).wf := by
  refine ⟨(assign_sparse ps hps hm.1).1, hm.2.1, fun c hc => ?_⟩
  rw [assignPages_pageState hm hps]
  split
  · exact hst
  · exact hm.2.2 c hc

/-- A key that is not listed has the default. -/
theorem exists_mem_of_sparseGet_ne {α : Type} {d : α} {l : List (Nat × α)} {k : Nat} (h : sparseGet d l k ≠ d) :
    ∃ x ∈ l, x.1 = k := by
  induction l with
  | nil => exact absurd rfl h
  | cons y l ih =>
    simp only [sparseGet] at h
    split at h
    · exact ⟨y, by simp, ‹_›⟩
    · obtain ⟨x, hx, rfl⟩ := ih h
      exact ⟨x, by simp [hx], rfl⟩

/-- Every page of the range is Absent. -/
theorem Builder.unassigned_iff (b : Builder) (start stop : Nat) :
    b.unassigned start stop = true ↔ ∀ p ∈ pagesBetween start stop, b.mem.pageState p = .absent := by
  have key : ∀ p, p ∈ pagesBetween start stop ↔
      start < stop ∧ start / config.pageSize ≤ p ∧ p ≤ (stop - 1) / config.pageSize := by
    intro p
    rw [mem_pagesBetween]
    dsimp only
    constructor
    · rintro ⟨x, h1, h2, rfl⟩; omega
    · rintro ⟨h1, h2, h3⟩
      by_cases hp : start / 4096 = p
      · exact ⟨start, by omega, h1, hp⟩
      · exact ⟨p * 4096, by omega, by omega, by omega⟩
  simp only [Builder.unassigned, List.all_eq_true, Bool.or_eq_true, Bool.not_eq_true', beq_iff_eq]
  constructor
  · intro h p hp
    by_contra hne
    obtain ⟨x, hx, rfl⟩ := exists_mem_of_sparseGet_ne hne
    rcases h x hx with h | h
    · obtain ⟨h1, h2, h3⟩ := (key _).mp hp
      simp [h1, h2, h3] at h
    · exact hne h
  · intro h x _
    by_cases hx : x.1 ∈ pagesBetween start stop
    · exact .inr (h _ hx)
    · left
      rw [key] at hx
      rw [Bool.eq_false_iff]
      simpa [and_assoc] using hx

/-- What an accepted page call has checked. -/
theorem Builder.accepts_iff (b : Builder) (start stop : Nat) (data : List Byte) :
    b.accepts start stop data = true ↔
      start % config.pageSize = 0 ∧ stop % config.pageSize = 0 ∧ start < stop ∧ stop ≤ memorySize ∧
        data.length ≤ stop - start ∧ ∀ p ∈ pagesBetween start stop, b.mem.pageState p = .absent := by
  simp [Builder.accepts, Builder.unassigned_iff, and_assoc]

theorem lt_maxPages_of_between {start stop p : Nat} (h : stop ≤ memorySize) (hp : p ∈ pagesBetween start stop) :
    p < maxPages := by
  obtain ⟨x, -, h2, rfl⟩ := mem_pagesBetween.mp hp
  simp only [memorySize, maxPages_eq] at *
  omega

/-- A page call keeps the canonical form, gives the pages of the range the state, and leaves the others. -/
theorem Builder.setPages_ok {st : PageState} (hst : st ≠ .absent) {start stop : Nat} {data : List Byte}
    {b b' : Builder} (hm : b.mem.wf) (h : b.setPages st start stop data = .ok b') :
    b.accepts start stop data = true ∧ b'.mem.wf ∧
      ∀ q, b'.mem.pageState q = if q ∈ pagesBetween start stop then st else b.mem.pageState q := by
  unfold Builder.setPages at h
  split at h
  · rename_i ha
    cases h
    obtain ⟨-, -, h3, h4, h5, -⟩ := (b.accepts_iff _ _ _).mp ha
    have hps := fun p (hp : p ∈ pagesBetween start stop) => lt_maxPages_of_between h4 hp
    refine ⟨ha, Memory.setBytes_wf (a := start) (bs := data) (assignPages_wf hm hst hps) ?_ fun j hj => ?_, fun q => ?_⟩
    · have : start + data.length ≤ memorySize := by omega
      exact this
    · rw [assignPages_pageState hm hps, if_pos (mem_pagesBetween.mpr ⟨start + j, by omega, by omega, rfl⟩)]
      exact hst
    · rw [Memory.setBytes_pageState, assignPages_pageState hm hps]
  · cases h

/-- `finalize` keeps pages and contents. -/
theorem Builder.finalize_ok {heapStart heapEnd : Nat} {b : Builder} {m : Memory}
    (h : b.finalize heapStart heapEnd = .ok m) :
    m = { b.mem with heapStart := heapStart, heapEnd := heapEnd, sbrkIndex := heapStart } := by
  unfold Builder.finalize at h
  split at h <;> cases h
  rfl

theorem Builder.finalize_wf {heapStart heapEnd : Nat} {b : Builder} {m : Memory} (hm : b.mem.wf)
    (h : b.finalize heapStart heapEnd = .ok m) : m.wf := by
  rw [Builder.finalize_ok h]; exact hm

/-- The memory of a new builder, and of the reset state, has the canonical form. -/
theorem emptyMemory_wf : ({} : Memory).wf := by decide

theorem reset_memory_wf : State.reset.mem.wf := by decide

end Sys2Proof.Machine
end

