-- ==== Sys2Proof/Laws/Ops.lean ====
section
/-! SUPPORT. One lemma for each shared operation that says everything it can do, for proofs to cite in place of
its definition. -/

namespace Sys2Proof.Machine

/-! ### Statuses and gas -/

@[simp] theorem raise_panic (s : State) : raise .panic s = .next { s with status := .panic } := rfl
@[simp] theorem raise_halt (s : State) : raise .halt s = .next { s with status := .halt } := rfl
@[simp] theorem raise_fault (a : BitVec 32) (s : State) :
    raise (.fault a) s = .next { s with status := .fault a } := rfl
@[simp] theorem raise_host (i : BitVec 64) (s : State) :
    raise (.host i) s = .next { s with status := .host i, resumePc := s.nextPc } := rfl

/-- `resume` outside a host call changes nothing. -/
theorem resume_of_not_host {s : State} (h : ∀ i, s.status ≠ .host i) : resume s = s := by
  unfold resume; split
  · rename_i i hi; exact absurd hi (h i)
  · rfl

/-- `resume` from a host call goes to the resume offset. -/
theorem resume_of_host {s : State} {i : BitVec 64} (h : s.status = .host i) :
    resume s = { s with pc := s.resumePc, status := .ok } := by simp [resume, h]

/-- After `resume` the status is not HOST. -/
theorem resume_status (s : State) (i : BitVec 64) : (resume s).status ≠ .host i := by
  unfold resume; split
  · simp
  · rename_i h; exact fun e => h i e

@[simp] theorem resume_params (s : State) : (resume s).params = s.params := by unfold resume; split <;> rfl
@[simp] theorem resume_life (s : State) : (resume s).life = s.life := by unfold resume; split <;> rfl
@[simp] theorem resume_gas (s : State) : (resume s).gas = s.gas := by unfold resume; split <;> rfl
@[simp] theorem resume_regs (s : State) : (resume s).regs = s.regs := by unfold resume; split <;> rfl
@[simp] theorem resume_resumePc (s : State) : (resume s).resumePc = s.resumePc := by unfold resume; split <;> rfl
@[simp] theorem resume_mem (s : State) : (resume s).mem = s.mem := by unfold resume; split <;> rfl
@[simp] theorem resume_image (s : State) : (resume s).image = s.image := by unfold resume; split <;> rfl
@[simp] theorem resume_blocks (s : State) : (resume s).blocks = s.blocks := by unfold resume; split <;> rfl

/-- `resume` goes where the next step fetches. -/
theorem resume_pc (s : State) : (resume s).pc = s.fetchPc := by
  unfold resume State.fetchPc; split <;> rfl

/-- What `charge` does: the whole cost, or OOG and nothing else. -/
theorem charge_cases (cost : Nat) (s : State) :
    (s.gas.toInt < cost ∧ charge cost s = { s with status := .oog }) ∨
    ((cost : Int) ≤ s.gas.toInt ∧ ∃ g : Gas, g.toInt = s.gas.toInt - cost ∧ charge cost s = { s with gas := g }) := by
  unfold charge
  split
  · exact .inl ⟨by omega, rfl⟩
  · refine .inr ⟨by omega, _, ?_, rfl⟩
    have h1 := (gas_bounds s.gas).2
    exact gas_toInt_ofInt (by omega) (by omega)

/-! ### Registers and memory accesses -/

theorem writeReg_eq (s : State) (r : Reg) (v : Word) : s.writeReg r v = .next (s.setReg r v).advance := rfl

/-- What a load can do: write the destination, or PANIC. -/
theorem load_cases (rA : Reg) (a n : Nat) (extend : Word → Word) (s : State) :
    (∃ v, s.mem.read a n = .ok v ∧ load rA a n extend s = .next (s.setReg rA (extend v)).advance) ∨
    (∃ e, s.mem.read a n = .error e ∧ load rA a n extend s = .next { s with status := .panic }) := by
  unfold load
  cases h : s.mem.read a n with
  | ok v => exact .inl ⟨v, rfl, rfl⟩
  | error e => exact .inr ⟨e, rfl, rfl⟩

/-- What a store can do: replace the memory, or PANIC. -/
theorem store_cases (a n : Nat) (v : Word) (s : State) :
    (∃ m, s.mem.write a n v = .ok m ∧ store a n v s = .next { s with mem := m }.advance) ∨
    (∃ e, s.mem.write a n v = .error e ∧ store a n v s = .next { s with status := .panic }) := by
  unfold store
  cases h : s.mem.write a n v with
  | ok m => exact .inl ⟨m, rfl, rfl⟩
  | error e => exact .inr ⟨e, rfl, rfl⟩

/-! ### Control transfer -/

/-- A place control may go: inside the code and a basic-block start. -/
def State.Lands (s : State) (t : CodeAddr) : Prop :=
  ∃ o, o < s.image.code.length ∧ s.blockAt o = true ∧ t = BitVec.ofNat 32 o

theorem legalTarget_iff (s : State) (t : Int) :
    s.legalTarget t = true ↔ 0 ≤ t ∧ t < s.image.code.length ∧ s.blockAt t.toNat = true := by
  simp [State.legalTarget, and_assoc]

theorem legalJump_iff (s : State) (a : BitVec 32) :
    s.legalJump a = true ↔ a.toNat % s.params.jumpAlign = 0 ∧ a.toNat ∈ s.image.jumpTable ∧
      a.toNat < s.image.code.length ∧ s.blockAt a.toNat = true := by
  simp [State.legalJump, and_assoc]

/-- What `branch` can do: fall through, land on a block start, or PANIC. -/
theorem branch_cases (off : Int) (cond : Bool) (s : State) :
    (cond = false ∧ branch off cond s = .next s.advance) ∨
    (cond = true ∧ s.legalTarget (s.branchTarget off) = true ∧
      branch off cond s = .next (s.goTo (BitVec.ofInt 32 (s.branchTarget off))) ∧
      s.Lands (BitVec.ofInt 32 (s.branchTarget off))) ∨
    (cond = true ∧ s.legalTarget (s.branchTarget off) = false ∧
      branch off cond s = .next { s with status := .panic }) := by
  cases cond
  · exact .inl ⟨rfl, rfl⟩
  · cases h : s.legalTarget (s.branchTarget off)
    · exact .inr (.inr ⟨rfl, rfl, by simp [branch, h]⟩)
    · refine .inr (.inl ⟨rfl, rfl, by simp [branch, h], ?_⟩)
      obtain ⟨h0, h1, h2⟩ := (legalTarget_iff _ _).mp h
      refine ⟨(s.branchTarget off).toNat, by omega, h2, ?_⟩
      rw [← BitVec.ofInt_natCast, Int.toNat_of_nonneg h0]

/-- What `djump` can do: PANIC at 0, HALT at the exit address, land on a block start, or PANIC. -/
theorem djump_cases (a : BitVec 32) (s : State) :
    (a = 0 ∧ djump a s = .next { s with status := .panic }) ∨
    (a ≠ 0 ∧ a = s.params.exitAddr ∧ djump a s = .next { s with status := .halt }) ∨
    (a ≠ 0 ∧ a ≠ s.params.exitAddr ∧ s.legalJump a = true ∧ djump a s = .next (s.goTo a) ∧ s.Lands a) ∨
    (a ≠ 0 ∧ a ≠ s.params.exitAddr ∧ s.legalJump a = false ∧ djump a s = .next { s with status := .panic }) := by
  by_cases h0 : a = 0
  · exact .inl ⟨h0, by simp [djump, h0]⟩
  · by_cases h1 : a = s.params.exitAddr
    · exact .inr (.inl ⟨h0, h1, by simp only [djump, h0, if_false, if_pos h1, raise_halt]⟩)
    · cases h2 : s.legalJump a
      · exact .inr (.inr (.inr ⟨h0, h1, rfl, by rw [djump, if_neg h0, if_neg h1, h2]; rfl⟩))
      · refine .inr (.inr (.inl ⟨h0, h1, rfl, by rw [djump, if_neg h0, if_neg h1, h2]; rfl, ?_⟩))
        obtain ⟨-, -, h3, h4⟩ := (legalJump_iff _ _).mp h2
        exact ⟨a.toNat, h3, h4, by simp⟩

/-! ### The step -/

/-- What one cycle can do: OOG, a fetch fault, an unassigned opcode, or the instruction. -/
theorem cycle_cases (run : Instr → State → Result) (s : State) (hs : s.status = .ok) :
    (s.gas.toInt < fetchCost s ∧ cycle run s = .next { s with status := .oog }) ∨
    (∃ g : Gas, (fetchCost s : Int) ≤ s.gas.toInt ∧ g.toInt = s.gas.toInt - fetchCost s ∧
      ((fetch s = .error .unmapped ∧ cycle run s = .next { s with gas := g, status := .fault s.pc }) ∨
       (∃ b, fetch s = .error (.unassigned b) ∧ cycle run s = .next { s with gas := g, status := .panic }) ∨
       (∃ i, fetch s = .ok i ∧ cycle run s = run i { s with gas := g }))) := by
  unfold cycle
  obtain ⟨h, e⟩ | ⟨h, g, hg, e⟩ := charge_cases (fetchCost s) s
  · exact .inl ⟨h, by simp [e]⟩
  · refine .inr ⟨g, h, hg, ?_⟩
    simp only [e, hs, reduceCtorEq, if_false]
    cases hf : fetch s with
    | error e => cases e <;> simp [execFetched]
    | ok i => simp [execFetched]

/-- What `nextStep` can do. -/
theorem nextStep_cases (run : Instr → State → Result) (s : State) :
    (s.life = .uninitialized ∧ nextStep run s = .refused .uninitialized) ∨
    (s.life = .initialized ∧ (resume s).status ≠ .ok ∧ resume s = s ∧ nextStep run s = .next s) ∨
    (s.life = .initialized ∧ (resume s).status = .ok ∧ nextStep run s = cycle run (resume s)) := by
  cases hl : s.life
  · exact .inl ⟨rfl, by simp [nextStep, hl]⟩
  · by_cases h : (resume s).status = .ok
    · exact .inr (.inr ⟨rfl, h, by simp [nextStep, hl, h]⟩)
    · have : resume s = s := resume_of_not_host fun i e => h (by simp [resume, e])
      refine .inr (.inl ⟨rfl, h, this, ?_⟩)
      rw [this] at h
      simp only [nextStep, hl, this]

end Sys2Proof.Machine
end

