-- ==== Sys2Proof/Laws/Exec.lean ====
section
/-! SUPPORT. Everything an instruction can do to the state, once, for proofs over all instructions. -/

namespace Sys2Proof.Machine

/-- The instruction writes the link value `v` to `r` before its jump (47_control_flow.md R319, R321). -/
def Instr.Links (i : Instr) (r : Reg) (v : Word) : Prop :=
  (∃ z, i = .loadImmJump r v z) ∨ ∃ b y, i = .loadImmJumpInd r b v y

/-- The ways an instruction can change the state. -/
inductive ExecStep (i : Instr) (s : State) : State → Prop where
  /-- Nothing but the advance. -/
  | advance : ExecStep i s s.advance
  /-- One register, and the advance. -/
  | write (r : Reg) (v : Word) : ExecStep i s (s.setReg r v).advance
  /-- Memory through the checked write, and the advance. -/
  | write_mem (a n : Nat) (v : Word) (m : Memory) (h : s.mem.write a n v = .ok m) :
      ExecStep i s { s with mem := m }.advance
  /-- A jump to a block start. -/
  | jump (t : CodeAddr) (h : s.Lands t) : ExecStep i s (s.goTo t)
  /-- A call to a block start. -/
  | call (r : Reg) (v : Word) (t : CodeAddr) (hi : Instr.Links i r v) (h : s.Lands t) :
      ExecStep i s ((s.setReg r v).goTo t)
  /-- PANIC or HALT. -/
  | stop (st : Status) (h : st = .panic ∨ st = .halt) : ExecStep i s { s with status := st }
  /-- PANIC or HALT after the link register is written. -/
  | call_stop (r : Reg) (v : Word) (st : Status) (hi : Instr.Links i r v) (h : st = .panic ∨ st = .halt) :
      ExecStep i s { s.setReg r v with status := st }
  /-- A host call. -/
  | host (c : Word) (hi : i = .ecalli c) :
      ExecStep i s { s with status := .host c, resumePc := s.nextPc }

/-- A meaning answers a next state, by one of these ways. -/
abbrev ExecStep.Does (i : Instr) (s : State) (r : Result) : Prop := ∃ t, r = .next t ∧ ExecStep i s t

variable {i : Instr} {s : State}

theorem writeReg_does (r : Reg) (v : Word) : ExecStep.Does i s (s.writeReg r v) := ⟨_, rfl, .write r v⟩

theorem load_does (rA : Reg) (a n : Nat) (e : Word → Word) : ExecStep.Does i s (load rA a n e s) := by
  obtain ⟨v, -, h⟩ | ⟨f, -, h⟩ := load_cases rA a n e s
  · exact ⟨_, h, .write _ _⟩
  · exact ⟨_, h, .stop _ (.inl rfl)⟩

theorem store_does (a n : Nat) (v : Word) : ExecStep.Does i s (store a n v s) := by
  obtain ⟨m, hm, h⟩ | ⟨f, -, h⟩ := store_cases a n v s
  · exact ⟨_, h, .write_mem a n v m hm⟩
  · exact ⟨_, h, .stop _ (.inl rfl)⟩

theorem branch_does (off : Int) (c : Bool) : ExecStep.Does i s (branch off c s) := by
  obtain ⟨-, h⟩ | ⟨-, -, h, hl⟩ | ⟨-, -, h⟩ := branch_cases off c s
  · exact ⟨_, h, .advance⟩
  · exact ⟨_, h, .jump _ hl⟩
  · exact ⟨_, h, .stop _ (.inl rfl)⟩

theorem djump_does (a : BitVec 32) : ExecStep.Does i s (djump a s) := by
  obtain ⟨-, h⟩ | ⟨-, -, h⟩ | ⟨-, -, -, h, hl⟩ | ⟨-, -, -, h⟩ := djump_cases a s
  · exact ⟨_, h, .stop _ (.inl rfl)⟩
  · exact ⟨_, h, .stop _ (.inr rfl)⟩
  · exact ⟨_, h, .jump _ hl⟩
  · exact ⟨_, h, .stop _ (.inl rfl)⟩

theorem link_branch_does {r : Reg} {v : Word} (hi : Instr.Links i r v) (off : Int) :
    ExecStep.Does i s (branch off true (s.setReg r v)) := by
  obtain ⟨h, -⟩ | ⟨-, -, h, hl⟩ | ⟨-, -, h⟩ := branch_cases off true (s.setReg r v)
  · cases h
  · exact ⟨_, h, .call r v _ hi hl⟩
  · exact ⟨_, h, .call_stop r v _ hi (.inl rfl)⟩

theorem link_djump_does {r : Reg} {v : Word} (hi : Instr.Links i r v) (a : BitVec 32) :
    ExecStep.Does i s (djump a (s.setReg r v)) := by
  obtain ⟨-, h⟩ | ⟨-, -, h⟩ | ⟨-, -, -, h, hl⟩ | ⟨-, -, -, h⟩ := djump_cases a (s.setReg r v)
  · exact ⟨_, h, .call_stop r v _ hi (.inl rfl)⟩
  · exact ⟨_, h, .call_stop r v _ hi (.inr rfl)⟩
  · exact ⟨_, h, .call r v _ hi hl⟩
  · exact ⟨_, h, .call_stop r v _ hi (.inl rfl)⟩

theorem ite_writeReg_does {p : Prop} [Decidable p] (r : Reg) (v : Word) :
    ExecStep.Does i s (if p then s.writeReg r v else .next s.advance) := by
  split
  · exact writeReg_does r v
  · exact ⟨_, rfl, .advance⟩

/-- Every instruction answers a next state, by one of the ways of `ExecStep`. -/
theorem exec_does (i : Instr) (s : State) : ExecStep.Does i s (exec i s) := by
  cases i
  case trap => exact ⟨_, rfl, .stop _ (.inl rfl)⟩
  case fallthrough => exact ⟨_, rfl, .advance⟩
  case ecalli c => exact ⟨_, rfl, .host c rfl⟩
  case loadImmJump r x z => exact link_branch_does (.inl ⟨z, rfl⟩) _
  case loadImmJumpInd r b x y => exact link_djump_does (.inr ⟨b, y, rfl⟩) _
  case jump z => exact branch_does z true
  case cmovIz _ _ b => exact ite_writeReg_does (p := s.reg b = 0) _ _
  case cmovNz _ _ b => exact ite_writeReg_does (p := s.reg b ≠ 0) _ _
  case cmovIzImm _ b _ => exact ite_writeReg_does (p := s.reg b = 0) _ _
  case cmovNzImm _ b _ => exact ite_writeReg_does (p := s.reg b ≠ 0) _ _
  all_goals
    first
      | exact writeReg_does _ _
      | exact load_does _ _ _ _
      | exact store_does _ _ _
      | exact branch_does _ _
      | exact djump_does _

end Sys2Proof.Machine
end

