-- ==== Sys2Proof/Laws/Host.lean ====
section
/-! SUPPORT. The host surface: what an operation does on an initialized and on an uninitialized instance, and what a
newly made or destroyed instance is. -/

namespace Sys2Proof.Machine

@[simp] theorem newInstance_life (p : Params) (rest : State) : (newInstance p rest).life = .uninitialized := rfl
@[simp] theorem newInstance_params (p : Params) (rest : State) : (newInstance p rest).params = p := rfl
@[simp] theorem destroy_life (rest s : State) : (destroy rest s).life = .uninitialized := rfl
@[simp] theorem destroy_params (rest s : State) : (destroy rest s).params = s.params := rfl

@[simp] theorem hostAnswer_ok (s : State) : hostAnswer (.ok s) = .next s := rfl
@[simp] theorem hostAnswer_error (e : Refusal) : hostAnswer (.error e) = .refused e := rfl

theorem guarded_initialized {α : Type} {s : State} (h : s.life = .initialized) (a : Except Refusal α) :
    s.guarded a = a := by simp [State.guarded, h]

theorem guarded_uninitialized {α : Type} {s : State} (h : s.life = .uninitialized) (a : Except Refusal α) :
    s.guarded a = .error .uninitialized := by simp [State.guarded, h]

theorem withReg_initialized {α : Type} {s : State} (h : s.life = .initialized) (r : Reg)
    (f : Reg → Except Refusal α) : s.withReg r f = f r := by
  simp [State.withReg, guarded_initialized h, r.isLt]

theorem withReg_index {α : Type} {s : State} (h : s.life = .initialized) {i : Nat} (hi : 12 < i)
    (f : Reg → Except Refusal α) : s.withReg i f = .error .registerIndex := by
  simp [State.withReg, guarded_initialized h, show ¬i < 13 by omega]

theorem withReg_uninitialized {α : Type} {s : State} (h : s.life = .uninitialized) (i : Nat)
    (f : Reg → Except Refusal α) : s.withReg i f = .error .uninitialized := guarded_uninitialized h _

/-- Everything the host's write of memory does on an initialized instance (20_memory.md R65, R87). -/
theorem hostStoreFrom_initialized {s : State} (h : s.life = .initialized) (a : Nat) (bs : List Byte) :
    hostStoreFrom a bs s =
      match s.mem.storeFrom a bs with
      | .error f => .fault f
      | .ok m => .next { s with mem := m } := by
  unfold hostStoreFrom
  rw [guarded_initialized h]
  cases s.mem.storeFrom a bs <;> rfl

/-- A reset reads nothing of the old instance but the parameters (70_reset_and_hazards.md R380). -/
theorem hostResetBlob_params (deblob : List Byte → Option Image) (code : List Byte) (pc : CodeAddr) (gas : Gas)
    (regs : Option (Vector Word 13)) (mem : Option Memory) (u : Unspecified) {s t : State}
    (h : s.params = t.params) :
    hostResetBlob deblob code pc gas regs mem u s = hostResetBlob deblob code pc gas regs mem u t := by
  unfold hostResetBlob hostReset
  rw [h]

end Sys2Proof.Machine
end

