-- ==== Sys2Proof/Laws/PerInstr.lean ====
section
/-! SUPPORT. The statement made for every instruction as syntax: its opcode's row of the opcode map makes it of
its own argument record. -/

namespace Sys2Proof

/-- The row's instruction, made of the operands of the record, is `i` (30_encoding.md R105, R122). -/
def Row.Makes (i : Instr) : Row → Args → Prop
  | .noArguments j, .noArguments => j = i
  | .oneImmediate f, .oneImmediate x => f x = i
  | .oneRegisterOneExtendedWidthImmediate f, .oneRegisterOneExtendedWidthImmediate a x => f a x = i
  | .twoImmediates f, .twoImmediates x y => f x y = i
  | .oneOffset f, .oneOffset z => f z = i
  | .oneRegisterOneImmediate f, .oneRegisterOneImmediate a x => f a x = i
  | .oneRegisterTwoImmediates f, .oneRegisterTwoImmediates a x y => f a x y = i
  | .oneRegisterOneImmediateOneOffset f, .oneRegisterOneImmediateOneOffset a x z => f a x z = i
  | .twoRegisters f, .twoRegisters d a => f d a = i
  | .twoRegistersOneImmediate f, .twoRegistersOneImmediate a b x => f a b x = i
  | .twoRegistersOneOffset f, .twoRegistersOneOffset a b z => f a b z = i
  | .twoRegistersTwoImmediates f, .twoRegistersTwoImmediates a b x y => f a b x y = i
  | .threeRegisters f, .threeRegisters d a b => f d a b = i
  | _, _ => False

/-- The opcode map has a row for the instruction's opcode, of the instruction's shape, and that row makes the
instruction of its operands; the opcode is a byte. -/
def Laws.TableRow.Statement (i : Instr) : Prop :=
  i.opcode < 256 ∧ ∃ row, opcodeTable.lookup i.opcode = some row ∧ row.Makes i i.args

theorem Laws.TableRow.trap : Laws.TableRow.Statement (.trap) :=
  ⟨Nat.le_of_ble_eq_true rfl, _, rfl, rfl⟩
theorem Laws.TableRow.fallthrough : Laws.TableRow.Statement (.fallthrough) :=
  ⟨Nat.le_of_ble_eq_true rfl, _, rfl, rfl⟩
theorem Laws.TableRow.ecalli (immX : Word) : Laws.TableRow.Statement (.ecalli immX) :=
  ⟨Nat.le_of_ble_eq_true rfl, _, rfl, rfl⟩
theorem Laws.TableRow.loadImm64 (rA : Reg) (immX : Word) : Laws.TableRow.Statement (.loadImm64 rA immX) :=
  ⟨Nat.le_of_ble_eq_true rfl, _, rfl, rfl⟩
theorem Laws.TableRow.storeImmU8 (immX immY : Word) : Laws.TableRow.Statement (.storeImmU8 immX immY) :=
  ⟨Nat.le_of_ble_eq_true rfl, _, rfl, rfl⟩
theorem Laws.TableRow.storeImmU16 (immX immY : Word) : Laws.TableRow.Statement (.storeImmU16 immX immY) :=
  ⟨Nat.le_of_ble_eq_true rfl, _, rfl, rfl⟩
theorem Laws.TableRow.storeImmU32 (immX immY : Word) : Laws.TableRow.Statement (.storeImmU32 immX immY) :=
  ⟨Nat.le_of_ble_eq_true rfl, _, rfl, rfl⟩
theorem Laws.TableRow.storeImmU64 (immX immY : Word) : Laws.TableRow.Statement (.storeImmU64 immX immY) :=
  ⟨Nat.le_of_ble_eq_true rfl, _, rfl, rfl⟩
theorem Laws.TableRow.jump (offX : Int) : Laws.TableRow.Statement (.jump offX) :=
  ⟨Nat.le_of_ble_eq_true rfl, _, rfl, rfl⟩
theorem Laws.TableRow.jumpInd (rA : Reg) (immX : Word) : Laws.TableRow.Statement (.jumpInd rA immX) :=
  ⟨Nat.le_of_ble_eq_true rfl, _, rfl, rfl⟩
theorem Laws.TableRow.loadImm (rA : Reg) (immX : Word) : Laws.TableRow.Statement (.loadImm rA immX) :=
  ⟨Nat.le_of_ble_eq_true rfl, _, rfl, rfl⟩
theorem Laws.TableRow.loadU8 (rA : Reg) (immX : Word) : Laws.TableRow.Statement (.loadU8 rA immX) :=
  ⟨Nat.le_of_ble_eq_true rfl, _, rfl, rfl⟩
theorem Laws.TableRow.loadI8 (rA : Reg) (immX : Word) : Laws.TableRow.Statement (.loadI8 rA immX) :=
  ⟨Nat.le_of_ble_eq_true rfl, _, rfl, rfl⟩
theorem Laws.TableRow.loadU16 (rA : Reg) (immX : Word) : Laws.TableRow.Statement (.loadU16 rA immX) :=
  ⟨Nat.le_of_ble_eq_true rfl, _, rfl, rfl⟩
theorem Laws.TableRow.loadI16 (rA : Reg) (immX : Word) : Laws.TableRow.Statement (.loadI16 rA immX) :=
  ⟨Nat.le_of_ble_eq_true rfl, _, rfl, rfl⟩
theorem Laws.TableRow.loadU32 (rA : Reg) (immX : Word) : Laws.TableRow.Statement (.loadU32 rA immX) :=
  ⟨Nat.le_of_ble_eq_true rfl, _, rfl, rfl⟩
theorem Laws.TableRow.loadI32 (rA : Reg) (immX : Word) : Laws.TableRow.Statement (.loadI32 rA immX) :=
  ⟨Nat.le_of_ble_eq_true rfl, _, rfl, rfl⟩
theorem Laws.TableRow.loadU64 (rA : Reg) (immX : Word) : Laws.TableRow.Statement (.loadU64 rA immX) :=
  ⟨Nat.le_of_ble_eq_true rfl, _, rfl, rfl⟩
theorem Laws.TableRow.storeU8 (rA : Reg) (immX : Word) : Laws.TableRow.Statement (.storeU8 rA immX) :=
  ⟨Nat.le_of_ble_eq_true rfl, _, rfl, rfl⟩
theorem Laws.TableRow.storeU16 (rA : Reg) (immX : Word) : Laws.TableRow.Statement (.storeU16 rA immX) :=
  ⟨Nat.le_of_ble_eq_true rfl, _, rfl, rfl⟩
theorem Laws.TableRow.storeU32 (rA : Reg) (immX : Word) : Laws.TableRow.Statement (.storeU32 rA immX) :=
  ⟨Nat.le_of_ble_eq_true rfl, _, rfl, rfl⟩
theorem Laws.TableRow.storeU64 (rA : Reg) (immX : Word) : Laws.TableRow.Statement (.storeU64 rA immX) :=
  ⟨Nat.le_of_ble_eq_true rfl, _, rfl, rfl⟩
theorem Laws.TableRow.storeImmIndU8 (rA : Reg) (immX immY : Word) : Laws.TableRow.Statement (.storeImmIndU8 rA immX immY) :=
  ⟨Nat.le_of_ble_eq_true rfl, _, rfl, rfl⟩
theorem Laws.TableRow.storeImmIndU16 (rA : Reg) (immX immY : Word) : Laws.TableRow.Statement (.storeImmIndU16 rA immX immY) :=
  ⟨Nat.le_of_ble_eq_true rfl, _, rfl, rfl⟩
theorem Laws.TableRow.storeImmIndU32 (rA : Reg) (immX immY : Word) : Laws.TableRow.Statement (.storeImmIndU32 rA immX immY) :=
  ⟨Nat.le_of_ble_eq_true rfl, _, rfl, rfl⟩
theorem Laws.TableRow.storeImmIndU64 (rA : Reg) (immX immY : Word) : Laws.TableRow.Statement (.storeImmIndU64 rA immX immY) :=
  ⟨Nat.le_of_ble_eq_true rfl, _, rfl, rfl⟩
theorem Laws.TableRow.loadImmJump (rA : Reg) (immX : Word) (offY : Int) : Laws.TableRow.Statement (.loadImmJump rA immX offY) :=
  ⟨Nat.le_of_ble_eq_true rfl, _, rfl, rfl⟩
theorem Laws.TableRow.branchEqImm (rA : Reg) (immX : Word) (offY : Int) : Laws.TableRow.Statement (.branchEqImm rA immX offY) :=
  ⟨Nat.le_of_ble_eq_true rfl, _, rfl, rfl⟩
theorem Laws.TableRow.branchNeImm (rA : Reg) (immX : Word) (offY : Int) : Laws.TableRow.Statement (.branchNeImm rA immX offY) :=
  ⟨Nat.le_of_ble_eq_true rfl, _, rfl, rfl⟩
theorem Laws.TableRow.branchLtUImm (rA : Reg) (immX : Word) (offY : Int) : Laws.TableRow.Statement (.branchLtUImm rA immX offY) :=
  ⟨Nat.le_of_ble_eq_true rfl, _, rfl, rfl⟩
theorem Laws.TableRow.branchLeUImm (rA : Reg) (immX : Word) (offY : Int) : Laws.TableRow.Statement (.branchLeUImm rA immX offY) :=
  ⟨Nat.le_of_ble_eq_true rfl, _, rfl, rfl⟩
theorem Laws.TableRow.branchGeUImm (rA : Reg) (immX : Word) (offY : Int) : Laws.TableRow.Statement (.branchGeUImm rA immX offY) :=
  ⟨Nat.le_of_ble_eq_true rfl, _, rfl, rfl⟩
theorem Laws.TableRow.branchGtUImm (rA : Reg) (immX : Word) (offY : Int) : Laws.TableRow.Statement (.branchGtUImm rA immX offY) :=
  ⟨Nat.le_of_ble_eq_true rfl, _, rfl, rfl⟩
theorem Laws.TableRow.branchLtSImm (rA : Reg) (immX : Word) (offY : Int) : Laws.TableRow.Statement (.branchLtSImm rA immX offY) :=
  ⟨Nat.le_of_ble_eq_true rfl, _, rfl, rfl⟩
theorem Laws.TableRow.branchLeSImm (rA : Reg) (immX : Word) (offY : Int) : Laws.TableRow.Statement (.branchLeSImm rA immX offY) :=
  ⟨Nat.le_of_ble_eq_true rfl, _, rfl, rfl⟩
theorem Laws.TableRow.branchGeSImm (rA : Reg) (immX : Word) (offY : Int) : Laws.TableRow.Statement (.branchGeSImm rA immX offY) :=
  ⟨Nat.le_of_ble_eq_true rfl, _, rfl, rfl⟩
theorem Laws.TableRow.branchGtSImm (rA : Reg) (immX : Word) (offY : Int) : Laws.TableRow.Statement (.branchGtSImm rA immX offY) :=
  ⟨Nat.le_of_ble_eq_true rfl, _, rfl, rfl⟩
theorem Laws.TableRow.moveReg (rD rA : Reg) : Laws.TableRow.Statement (.moveReg rD rA) :=
  ⟨Nat.le_of_ble_eq_true rfl, _, rfl, rfl⟩
theorem Laws.TableRow.countSetBits64 (rD rA : Reg) : Laws.TableRow.Statement (.countSetBits64 rD rA) :=
  ⟨Nat.le_of_ble_eq_true rfl, _, rfl, rfl⟩
theorem Laws.TableRow.countSetBits32 (rD rA : Reg) : Laws.TableRow.Statement (.countSetBits32 rD rA) :=
  ⟨Nat.le_of_ble_eq_true rfl, _, rfl, rfl⟩
theorem Laws.TableRow.leadingZeroBits64 (rD rA : Reg) : Laws.TableRow.Statement (.leadingZeroBits64 rD rA) :=
  ⟨Nat.le_of_ble_eq_true rfl, _, rfl, rfl⟩
theorem Laws.TableRow.leadingZeroBits32 (rD rA : Reg) : Laws.TableRow.Statement (.leadingZeroBits32 rD rA) :=
  ⟨Nat.le_of_ble_eq_true rfl, _, rfl, rfl⟩
theorem Laws.TableRow.trailingZeroBits64 (rD rA : Reg) : Laws.TableRow.Statement (.trailingZeroBits64 rD rA) :=
  ⟨Nat.le_of_ble_eq_true rfl, _, rfl, rfl⟩
theorem Laws.TableRow.trailingZeroBits32 (rD rA : Reg) : Laws.TableRow.Statement (.trailingZeroBits32 rD rA) :=
  ⟨Nat.le_of_ble_eq_true rfl, _, rfl, rfl⟩
theorem Laws.TableRow.signExtend8 (rD rA : Reg) : Laws.TableRow.Statement (.signExtend8 rD rA) :=
  ⟨Nat.le_of_ble_eq_true rfl, _, rfl, rfl⟩
theorem Laws.TableRow.signExtend16 (rD rA : Reg) : Laws.TableRow.Statement (.signExtend16 rD rA) :=
  ⟨Nat.le_of_ble_eq_true rfl, _, rfl, rfl⟩
theorem Laws.TableRow.zeroExtend16 (rD rA : Reg) : Laws.TableRow.Statement (.zeroExtend16 rD rA) :=
  ⟨Nat.le_of_ble_eq_true rfl, _, rfl, rfl⟩
theorem Laws.TableRow.reverseBytes (rD rA : Reg) : Laws.TableRow.Statement (.reverseBytes rD rA) :=
  ⟨Nat.le_of_ble_eq_true rfl, _, rfl, rfl⟩
theorem Laws.TableRow.storeIndU8 (rA rB : Reg) (immX : Word) : Laws.TableRow.Statement (.storeIndU8 rA rB immX) :=
  ⟨Nat.le_of_ble_eq_true rfl, _, rfl, rfl⟩
theorem Laws.TableRow.storeIndU16 (rA rB : Reg) (immX : Word) : Laws.TableRow.Statement (.storeIndU16 rA rB immX) :=
  ⟨Nat.le_of_ble_eq_true rfl, _, rfl, rfl⟩
theorem Laws.TableRow.storeIndU32 (rA rB : Reg) (immX : Word) : Laws.TableRow.Statement (.storeIndU32 rA rB immX) :=
  ⟨Nat.le_of_ble_eq_true rfl, _, rfl, rfl⟩
theorem Laws.TableRow.storeIndU64 (rA rB : Reg) (immX : Word) : Laws.TableRow.Statement (.storeIndU64 rA rB immX) :=
  ⟨Nat.le_of_ble_eq_true rfl, _, rfl, rfl⟩
theorem Laws.TableRow.loadIndU8 (rA rB : Reg) (immX : Word) : Laws.TableRow.Statement (.loadIndU8 rA rB immX) :=
  ⟨Nat.le_of_ble_eq_true rfl, _, rfl, rfl⟩
theorem Laws.TableRow.loadIndI8 (rA rB : Reg) (immX : Word) : Laws.TableRow.Statement (.loadIndI8 rA rB immX) :=
  ⟨Nat.le_of_ble_eq_true rfl, _, rfl, rfl⟩
theorem Laws.TableRow.loadIndU16 (rA rB : Reg) (immX : Word) : Laws.TableRow.Statement (.loadIndU16 rA rB immX) :=
  ⟨Nat.le_of_ble_eq_true rfl, _, rfl, rfl⟩
theorem Laws.TableRow.loadIndI16 (rA rB : Reg) (immX : Word) : Laws.TableRow.Statement (.loadIndI16 rA rB immX) :=
  ⟨Nat.le_of_ble_eq_true rfl, _, rfl, rfl⟩
theorem Laws.TableRow.loadIndU32 (rA rB : Reg) (immX : Word) : Laws.TableRow.Statement (.loadIndU32 rA rB immX) :=
  ⟨Nat.le_of_ble_eq_true rfl, _, rfl, rfl⟩
theorem Laws.TableRow.loadIndI32 (rA rB : Reg) (immX : Word) : Laws.TableRow.Statement (.loadIndI32 rA rB immX) :=
  ⟨Nat.le_of_ble_eq_true rfl, _, rfl, rfl⟩
theorem Laws.TableRow.loadIndU64 (rA rB : Reg) (immX : Word) : Laws.TableRow.Statement (.loadIndU64 rA rB immX) :=
  ⟨Nat.le_of_ble_eq_true rfl, _, rfl, rfl⟩
theorem Laws.TableRow.addImm32 (rA rB : Reg) (immX : Word) : Laws.TableRow.Statement (.addImm32 rA rB immX) :=
  ⟨Nat.le_of_ble_eq_true rfl, _, rfl, rfl⟩
theorem Laws.TableRow.andImm (rA rB : Reg) (immX : Word) : Laws.TableRow.Statement (.andImm rA rB immX) :=
  ⟨Nat.le_of_ble_eq_true rfl, _, rfl, rfl⟩
theorem Laws.TableRow.xorImm (rA rB : Reg) (immX : Word) : Laws.TableRow.Statement (.xorImm rA rB immX) :=
  ⟨Nat.le_of_ble_eq_true rfl, _, rfl, rfl⟩
theorem Laws.TableRow.orImm (rA rB : Reg) (immX : Word) : Laws.TableRow.Statement (.orImm rA rB immX) :=
  ⟨Nat.le_of_ble_eq_true rfl, _, rfl, rfl⟩
theorem Laws.TableRow.mulImm32 (rA rB : Reg) (immX : Word) : Laws.TableRow.Statement (.mulImm32 rA rB immX) :=
  ⟨Nat.le_of_ble_eq_true rfl, _, rfl, rfl⟩
theorem Laws.TableRow.setLtUImm (rA rB : Reg) (immX : Word) : Laws.TableRow.Statement (.setLtUImm rA rB immX) :=
  ⟨Nat.le_of_ble_eq_true rfl, _, rfl, rfl⟩
theorem Laws.TableRow.setLtSImm (rA rB : Reg) (immX : Word) : Laws.TableRow.Statement (.setLtSImm rA rB immX) :=
  ⟨Nat.le_of_ble_eq_true rfl, _, rfl, rfl⟩
theorem Laws.TableRow.shloLImm32 (rA rB : Reg) (immX : Word) : Laws.TableRow.Statement (.shloLImm32 rA rB immX) :=
  ⟨Nat.le_of_ble_eq_true rfl, _, rfl, rfl⟩
theorem Laws.TableRow.shloRImm32 (rA rB : Reg) (immX : Word) : Laws.TableRow.Statement (.shloRImm32 rA rB immX) :=
  ⟨Nat.le_of_ble_eq_true rfl, _, rfl, rfl⟩
theorem Laws.TableRow.sharRImm32 (rA rB : Reg) (immX : Word) : Laws.TableRow.Statement (.sharRImm32 rA rB immX) :=
  ⟨Nat.le_of_ble_eq_true rfl, _, rfl, rfl⟩
theorem Laws.TableRow.negAddImm32 (rA rB : Reg) (immX : Word) : Laws.TableRow.Statement (.negAddImm32 rA rB immX) :=
  ⟨Nat.le_of_ble_eq_true rfl, _, rfl, rfl⟩
theorem Laws.TableRow.setGtUImm (rA rB : Reg) (immX : Word) : Laws.TableRow.Statement (.setGtUImm rA rB immX) :=
  ⟨Nat.le_of_ble_eq_true rfl, _, rfl, rfl⟩
theorem Laws.TableRow.setGtSImm (rA rB : Reg) (immX : Word) : Laws.TableRow.Statement (.setGtSImm rA rB immX) :=
  ⟨Nat.le_of_ble_eq_true rfl, _, rfl, rfl⟩
theorem Laws.TableRow.shloLImmAlt32 (rA rB : Reg) (immX : Word) : Laws.TableRow.Statement (.shloLImmAlt32 rA rB immX) :=
  ⟨Nat.le_of_ble_eq_true rfl, _, rfl, rfl⟩
theorem Laws.TableRow.shloRImmAlt32 (rA rB : Reg) (immX : Word) : Laws.TableRow.Statement (.shloRImmAlt32 rA rB immX) :=
  ⟨Nat.le_of_ble_eq_true rfl, _, rfl, rfl⟩
theorem Laws.TableRow.sharRImmAlt32 (rA rB : Reg) (immX : Word) : Laws.TableRow.Statement (.sharRImmAlt32 rA rB immX) :=
  ⟨Nat.le_of_ble_eq_true rfl, _, rfl, rfl⟩
theorem Laws.TableRow.cmovIzImm (rA rB : Reg) (immX : Word) : Laws.TableRow.Statement (.cmovIzImm rA rB immX) :=
  ⟨Nat.le_of_ble_eq_true rfl, _, rfl, rfl⟩
theorem Laws.TableRow.cmovNzImm (rA rB : Reg) (immX : Word) : Laws.TableRow.Statement (.cmovNzImm rA rB immX) :=
  ⟨Nat.le_of_ble_eq_true rfl, _, rfl, rfl⟩
theorem Laws.TableRow.addImm64 (rA rB : Reg) (immX : Word) : Laws.TableRow.Statement (.addImm64 rA rB immX) :=
  ⟨Nat.le_of_ble_eq_true rfl, _, rfl, rfl⟩
theorem Laws.TableRow.mulImm64 (rA rB : Reg) (immX : Word) : Laws.TableRow.Statement (.mulImm64 rA rB immX) :=
  ⟨Nat.le_of_ble_eq_true rfl, _, rfl, rfl⟩
theorem Laws.TableRow.shloLImm64 (rA rB : Reg) (immX : Word) : Laws.TableRow.Statement (.shloLImm64 rA rB immX) :=
  ⟨Nat.le_of_ble_eq_true rfl, _, rfl, rfl⟩
theorem Laws.TableRow.shloRImm64 (rA rB : Reg) (immX : Word) : Laws.TableRow.Statement (.shloRImm64 rA rB immX) :=
  ⟨Nat.le_of_ble_eq_true rfl, _, rfl, rfl⟩
theorem Laws.TableRow.sharRImm64 (rA rB : Reg) (immX : Word) : Laws.TableRow.Statement (.sharRImm64 rA rB immX) :=
  ⟨Nat.le_of_ble_eq_true rfl, _, rfl, rfl⟩
theorem Laws.TableRow.negAddImm64 (rA rB : Reg) (immX : Word) : Laws.TableRow.Statement (.negAddImm64 rA rB immX) :=
  ⟨Nat.le_of_ble_eq_true rfl, _, rfl, rfl⟩
theorem Laws.TableRow.shloLImmAlt64 (rA rB : Reg) (immX : Word) : Laws.TableRow.Statement (.shloLImmAlt64 rA rB immX) :=
  ⟨Nat.le_of_ble_eq_true rfl, _, rfl, rfl⟩
theorem Laws.TableRow.shloRImmAlt64 (rA rB : Reg) (immX : Word) : Laws.TableRow.Statement (.shloRImmAlt64 rA rB immX) :=
  ⟨Nat.le_of_ble_eq_true rfl, _, rfl, rfl⟩
theorem Laws.TableRow.sharRImmAlt64 (rA rB : Reg) (immX : Word) : Laws.TableRow.Statement (.sharRImmAlt64 rA rB immX) :=
  ⟨Nat.le_of_ble_eq_true rfl, _, rfl, rfl⟩
theorem Laws.TableRow.rotR64Imm (rA rB : Reg) (immX : Word) : Laws.TableRow.Statement (.rotR64Imm rA rB immX) :=
  ⟨Nat.le_of_ble_eq_true rfl, _, rfl, rfl⟩
theorem Laws.TableRow.rotR64ImmAlt (rA rB : Reg) (immX : Word) : Laws.TableRow.Statement (.rotR64ImmAlt rA rB immX) :=
  ⟨Nat.le_of_ble_eq_true rfl, _, rfl, rfl⟩
theorem Laws.TableRow.rotR32Imm (rA rB : Reg) (immX : Word) : Laws.TableRow.Statement (.rotR32Imm rA rB immX) :=
  ⟨Nat.le_of_ble_eq_true rfl, _, rfl, rfl⟩
theorem Laws.TableRow.rotR32ImmAlt (rA rB : Reg) (immX : Word) : Laws.TableRow.Statement (.rotR32ImmAlt rA rB immX) :=
  ⟨Nat.le_of_ble_eq_true rfl, _, rfl, rfl⟩
theorem Laws.TableRow.branchEq (rA rB : Reg) (offX : Int) : Laws.TableRow.Statement (.branchEq rA rB offX) :=
  ⟨Nat.le_of_ble_eq_true rfl, _, rfl, rfl⟩
theorem Laws.TableRow.branchNe (rA rB : Reg) (offX : Int) : Laws.TableRow.Statement (.branchNe rA rB offX) :=
  ⟨Nat.le_of_ble_eq_true rfl, _, rfl, rfl⟩
theorem Laws.TableRow.branchLtU (rA rB : Reg) (offX : Int) : Laws.TableRow.Statement (.branchLtU rA rB offX) :=
  ⟨Nat.le_of_ble_eq_true rfl, _, rfl, rfl⟩
theorem Laws.TableRow.branchLtS (rA rB : Reg) (offX : Int) : Laws.TableRow.Statement (.branchLtS rA rB offX) :=
  ⟨Nat.le_of_ble_eq_true rfl, _, rfl, rfl⟩
theorem Laws.TableRow.branchGeU (rA rB : Reg) (offX : Int) : Laws.TableRow.Statement (.branchGeU rA rB offX) :=
  ⟨Nat.le_of_ble_eq_true rfl, _, rfl, rfl⟩
theorem Laws.TableRow.branchGeS (rA rB : Reg) (offX : Int) : Laws.TableRow.Statement (.branchGeS rA rB offX) :=
  ⟨Nat.le_of_ble_eq_true rfl, _, rfl, rfl⟩
theorem Laws.TableRow.loadImmJumpInd (rA rB : Reg) (immX immY : Word) : Laws.TableRow.Statement (.loadImmJumpInd rA rB immX immY) :=
  ⟨Nat.le_of_ble_eq_true rfl, _, rfl, rfl⟩
theorem Laws.TableRow.add32 (rD rA rB : Reg) : Laws.TableRow.Statement (.add32 rD rA rB) :=
  ⟨Nat.le_of_ble_eq_true rfl, _, rfl, rfl⟩
theorem Laws.TableRow.sub32 (rD rA rB : Reg) : Laws.TableRow.Statement (.sub32 rD rA rB) :=
  ⟨Nat.le_of_ble_eq_true rfl, _, rfl, rfl⟩
theorem Laws.TableRow.mul32 (rD rA rB : Reg) : Laws.TableRow.Statement (.mul32 rD rA rB) :=
  ⟨Nat.le_of_ble_eq_true rfl, _, rfl, rfl⟩
theorem Laws.TableRow.divU32 (rD rA rB : Reg) : Laws.TableRow.Statement (.divU32 rD rA rB) :=
  ⟨Nat.le_of_ble_eq_true rfl, _, rfl, rfl⟩
theorem Laws.TableRow.divS32 (rD rA rB : Reg) : Laws.TableRow.Statement (.divS32 rD rA rB) :=
  ⟨Nat.le_of_ble_eq_true rfl, _, rfl, rfl⟩
theorem Laws.TableRow.remU32 (rD rA rB : Reg) : Laws.TableRow.Statement (.remU32 rD rA rB) :=
  ⟨Nat.le_of_ble_eq_true rfl, _, rfl, rfl⟩
theorem Laws.TableRow.remS32 (rD rA rB : Reg) : Laws.TableRow.Statement (.remS32 rD rA rB) :=
  ⟨Nat.le_of_ble_eq_true rfl, _, rfl, rfl⟩
theorem Laws.TableRow.shloL32 (rD rA rB : Reg) : Laws.TableRow.Statement (.shloL32 rD rA rB) :=
  ⟨Nat.le_of_ble_eq_true rfl, _, rfl, rfl⟩
theorem Laws.TableRow.shloR32 (rD rA rB : Reg) : Laws.TableRow.Statement (.shloR32 rD rA rB) :=
  ⟨Nat.le_of_ble_eq_true rfl, _, rfl, rfl⟩
theorem Laws.TableRow.sharR32 (rD rA rB : Reg) : Laws.TableRow.Statement (.sharR32 rD rA rB) :=
  ⟨Nat.le_of_ble_eq_true rfl, _, rfl, rfl⟩
theorem Laws.TableRow.add64 (rD rA rB : Reg) : Laws.TableRow.Statement (.add64 rD rA rB) :=
  ⟨Nat.le_of_ble_eq_true rfl, _, rfl, rfl⟩
theorem Laws.TableRow.sub64 (rD rA rB : Reg) : Laws.TableRow.Statement (.sub64 rD rA rB) :=
  ⟨Nat.le_of_ble_eq_true rfl, _, rfl, rfl⟩
theorem Laws.TableRow.mul64 (rD rA rB : Reg) : Laws.TableRow.Statement (.mul64 rD rA rB) :=
  ⟨Nat.le_of_ble_eq_true rfl, _, rfl, rfl⟩
theorem Laws.TableRow.divU64 (rD rA rB : Reg) : Laws.TableRow.Statement (.divU64 rD rA rB) :=
  ⟨Nat.le_of_ble_eq_true rfl, _, rfl, rfl⟩
theorem Laws.TableRow.divS64 (rD rA rB : Reg) : Laws.TableRow.Statement (.divS64 rD rA rB) :=
  ⟨Nat.le_of_ble_eq_true rfl, _, rfl, rfl⟩
theorem Laws.TableRow.remU64 (rD rA rB : Reg) : Laws.TableRow.Statement (.remU64 rD rA rB) :=
  ⟨Nat.le_of_ble_eq_true rfl, _, rfl, rfl⟩
theorem Laws.TableRow.remS64 (rD rA rB : Reg) : Laws.TableRow.Statement (.remS64 rD rA rB) :=
  ⟨Nat.le_of_ble_eq_true rfl, _, rfl, rfl⟩
theorem Laws.TableRow.shloL64 (rD rA rB : Reg) : Laws.TableRow.Statement (.shloL64 rD rA rB) :=
  ⟨Nat.le_of_ble_eq_true rfl, _, rfl, rfl⟩
theorem Laws.TableRow.shloR64 (rD rA rB : Reg) : Laws.TableRow.Statement (.shloR64 rD rA rB) :=
  ⟨Nat.le_of_ble_eq_true rfl, _, rfl, rfl⟩
theorem Laws.TableRow.sharR64 (rD rA rB : Reg) : Laws.TableRow.Statement (.sharR64 rD rA rB) :=
  ⟨Nat.le_of_ble_eq_true rfl, _, rfl, rfl⟩
theorem Laws.TableRow.and (rD rA rB : Reg) : Laws.TableRow.Statement (.and rD rA rB) :=
  ⟨Nat.le_of_ble_eq_true rfl, _, rfl, rfl⟩
theorem Laws.TableRow.xor (rD rA rB : Reg) : Laws.TableRow.Statement (.xor rD rA rB) :=
  ⟨Nat.le_of_ble_eq_true rfl, _, rfl, rfl⟩
theorem Laws.TableRow.or (rD rA rB : Reg) : Laws.TableRow.Statement (.or rD rA rB) :=
  ⟨Nat.le_of_ble_eq_true rfl, _, rfl, rfl⟩
theorem Laws.TableRow.mulUpperSS (rD rA rB : Reg) : Laws.TableRow.Statement (.mulUpperSS rD rA rB) :=
  ⟨Nat.le_of_ble_eq_true rfl, _, rfl, rfl⟩
theorem Laws.TableRow.mulUpperUU (rD rA rB : Reg) : Laws.TableRow.Statement (.mulUpperUU rD rA rB) :=
  ⟨Nat.le_of_ble_eq_true rfl, _, rfl, rfl⟩
theorem Laws.TableRow.mulUpperSU (rD rA rB : Reg) : Laws.TableRow.Statement (.mulUpperSU rD rA rB) :=
  ⟨Nat.le_of_ble_eq_true rfl, _, rfl, rfl⟩
theorem Laws.TableRow.setLtU (rD rA rB : Reg) : Laws.TableRow.Statement (.setLtU rD rA rB) :=
  ⟨Nat.le_of_ble_eq_true rfl, _, rfl, rfl⟩
theorem Laws.TableRow.setLtS (rD rA rB : Reg) : Laws.TableRow.Statement (.setLtS rD rA rB) :=
  ⟨Nat.le_of_ble_eq_true rfl, _, rfl, rfl⟩
theorem Laws.TableRow.cmovIz (rD rA rB : Reg) : Laws.TableRow.Statement (.cmovIz rD rA rB) :=
  ⟨Nat.le_of_ble_eq_true rfl, _, rfl, rfl⟩
theorem Laws.TableRow.cmovNz (rD rA rB : Reg) : Laws.TableRow.Statement (.cmovNz rD rA rB) :=
  ⟨Nat.le_of_ble_eq_true rfl, _, rfl, rfl⟩
theorem Laws.TableRow.rotL64 (rD rA rB : Reg) : Laws.TableRow.Statement (.rotL64 rD rA rB) :=
  ⟨Nat.le_of_ble_eq_true rfl, _, rfl, rfl⟩
theorem Laws.TableRow.rotL32 (rD rA rB : Reg) : Laws.TableRow.Statement (.rotL32 rD rA rB) :=
  ⟨Nat.le_of_ble_eq_true rfl, _, rfl, rfl⟩
theorem Laws.TableRow.rotR64 (rD rA rB : Reg) : Laws.TableRow.Statement (.rotR64 rD rA rB) :=
  ⟨Nat.le_of_ble_eq_true rfl, _, rfl, rfl⟩
theorem Laws.TableRow.rotR32 (rD rA rB : Reg) : Laws.TableRow.Statement (.rotR32 rD rA rB) :=
  ⟨Nat.le_of_ble_eq_true rfl, _, rfl, rfl⟩
theorem Laws.TableRow.andInv (rD rA rB : Reg) : Laws.TableRow.Statement (.andInv rD rA rB) :=
  ⟨Nat.le_of_ble_eq_true rfl, _, rfl, rfl⟩
theorem Laws.TableRow.orInv (rD rA rB : Reg) : Laws.TableRow.Statement (.orInv rD rA rB) :=
  ⟨Nat.le_of_ble_eq_true rfl, _, rfl, rfl⟩
theorem Laws.TableRow.xnor (rD rA rB : Reg) : Laws.TableRow.Statement (.xnor rD rA rB) :=
  ⟨Nat.le_of_ble_eq_true rfl, _, rfl, rfl⟩
theorem Laws.TableRow.max (rD rA rB : Reg) : Laws.TableRow.Statement (.max rD rA rB) :=
  ⟨Nat.le_of_ble_eq_true rfl, _, rfl, rfl⟩
theorem Laws.TableRow.maxU (rD rA rB : Reg) : Laws.TableRow.Statement (.maxU rD rA rB) :=
  ⟨Nat.le_of_ble_eq_true rfl, _, rfl, rfl⟩
theorem Laws.TableRow.min (rD rA rB : Reg) : Laws.TableRow.Statement (.min rD rA rB) :=
  ⟨Nat.le_of_ble_eq_true rfl, _, rfl, rfl⟩
theorem Laws.TableRow.minU (rD rA rB : Reg) : Laws.TableRow.Statement (.minU rD rA rB) :=
  ⟨Nat.le_of_ble_eq_true rfl, _, rfl, rfl⟩

end Sys2Proof
end

