-- ==== Sys2Proof/Laws/Step.lean ====
section
/-! SUPPORT. Everything a step can do, once: over all states, with the instruction's part in `ExecStep`. -/

namespace Sys2Proof.Machine

/-- What an instruction that answered `t` did. -/
theorem exec_next {i : Instr} {s t : State} (h : exec i s = .next t) : ExecStep i s t := by
  obtain ⟨t', e, h'⟩ := exec_does i s
  rw [h] at e; cases e; exact h'

/-- Before a step's cycle the status is terminal, or `resume` makes it OK. -/
theorem resume_status_ok_iff (s : State) : (resume s).status = .ok ↔ s.status.terminal = false := by
  unfold resume; cases h : s.status <;> simp [Status.terminal, h]

theorem resume_of_terminal {s : State} (h : s.status.terminal = true) : resume s = s :=
  resume_of_not_host fun i e => by simp [e, Status.terminal] at h

theorem fetch_resume (s : State) : fetch (resume s) = decodeAt s.image s.fetchPc.toNat := by
  rw [fetch, resume_image, resume_pc]

/-- A fetch finds no opcode exactly outside the code. -/
theorem fetch_unmapped {s : State} (h : fetch s = .error .unmapped) : s.image.code.length ≤ s.pc.toNat := by
  unfold fetch decodeAt decode at h
  split at h
  · rename_i h'; simpa using h'
  · split at h <;> cases h

/-- A fetch that finds an opcode is inside the code. -/
theorem fetch_mapped {s : State} (h : fetch s ≠ .error .unmapped) : s.pc.toNat < s.image.code.length := by
  by_contra hc
  exact h (by simp [fetch, decodeAt, List.drop_eq_nil_of_le (Nat.le_of_not_lt hc), decode])

/-- Everything a step that answers `t` can have done; `r` is the state it resumed to. -/
inductive StepFrom (r : State) : State → Prop where
  /-- Out of gas. -/
  | oog (h : r.gas.toInt < fetchCost r) : StepFrom r { r with status := .oog }
  /-- Paid, and no opcode at `pc`. -/
  | fetch_fault (g : Gas) (hc : (fetchCost r : Int) ≤ r.gas.toInt) (hg : g.toInt = r.gas.toInt - fetchCost r)
      (h : fetch r = .error .unmapped) : StepFrom r { r with gas := g, status := .fault r.pc }
  /-- Paid, and an unassigned opcode at `pc`. -/
  | unassigned (g : Gas) (b : Byte) (hc : (fetchCost r : Int) ≤ r.gas.toInt)
      (hg : g.toInt = r.gas.toInt - fetchCost r) (h : fetch r = .error (.unassigned b)) : StepFrom r { r with gas := g, status := .panic }
  /-- Paid, and the instruction at `pc`. -/
  | run (g : Gas) (i : Instr) (t : State) (hc : (fetchCost r : Int) ≤ r.gas.toInt)
      (hg : g.toInt = r.gas.toInt - fetchCost r) (h : fetch r = .ok i) (ht : exec i { r with gas := g } = .next t) : StepFrom r t

/-- What a step can do: nothing in a terminal status, otherwise one of `StepFrom` of the resumed state. -/
theorem step_next {s t : State} (h : step s = .next t) :
    s.life = .initialized ∧
      ((s.status.terminal = true ∧ t = s) ∨
        (s.status.terminal = false ∧ (resume s).status = .ok ∧ StepFrom (resume s) t)) := by
  unfold step at h
  obtain ⟨-, h1⟩ | ⟨hl, h1, h2, h3⟩ | ⟨hl, h1, h3⟩ := nextStep_cases exec s
  · rw [h1] at h; cases h
  · rw [h3] at h; cases h
    refine ⟨hl, .inl ⟨?_, rfl⟩⟩
    rw [Ne, resume_status_ok_iff] at h1
    simpa using h1
  · refine ⟨hl, .inr ⟨(resume_status_ok_iff s).mp h1, h1, ?_⟩⟩
    rw [h3] at h
    obtain ⟨h4, h5⟩ | ⟨g, hc, hg, ⟨h6, h7⟩ | ⟨b, h6, h7⟩ | ⟨i, h6, h7⟩⟩ := cycle_cases exec (resume s) h1
    · rw [h5] at h; cases h; exact .oog h4
    · rw [h7] at h; cases h; exact .fetch_fault g hc hg h6
    · rw [h7] at h; cases h; exact .unassigned g b hc hg h6
    · rw [h7] at h; exact .run g i t hc hg h6 h

end Sys2Proof.Machine
end

