-- ==== Sys2Proof/Laws/Views.lean ====
section
/-! SUPPORT. The integer views of the statements against the bit vectors of the model. -/

namespace Sys2Proof.Machine

theorem sView_eq {N : Nat} (hN : 0 < N) (v : Int) : sView N v = (BitVec.ofInt N v).toInt := by
  have h2 : (2 : Int) ^ N = 2 * 2 ^ (N - 1) := by
    obtain ⟨k, rfl⟩ : ∃ k, N = k + 1 := ⟨N - 1, by omega⟩
    simp [pow_succ]; ring
  have h3 : (2 * (2 : Int) ^ (N - 1) + 1) / 2 = 2 ^ (N - 1) := by omega
  rw [BitVec.toInt_ofInt, Int.bmod_def, sView]
  push_cast
  rw [h2, h3]

theorem sext_eq {N : Nat} (hN : 0 < N) (v : Int) : sext N v = (BitVec.ofInt N v).signExtend 64 := by
  rw [sext, sView_eq hN, BitVec.signExtend, fromSigned]

theorem sgn_eq (s : State) (r : Reg) : s.sgn r = (s.reg r).toInt := by
  rw [State.sgn, State.uns, sView_eq (by decide), BitVec.ofInt_natCast, BitVec.ofNat_toNat, BitVec.setWidth_eq]

theorem sView_64 (v : Word) : sView 64 v.toNat = v.toInt := by
  rw [sView_eq (by decide), BitVec.ofInt_natCast, BitVec.ofNat_toNat, BitVec.setWidth_eq]

theorem sView_32 (v : Word) : sView 32 v.toNat = (lo32 v).toInt := by
  rw [sView_eq (by decide), BitVec.ofInt_natCast, lo32, BitVec.ofNat_toNat]

theorem ofInt_emod (N : Nat) (z : Int) : BitVec.ofInt N (z % 2 ^ N) = BitVec.ofInt N z := by
  apply BitVec.eq_of_toNat_eq; simp [BitVec.toNat_ofInt]

theorem lo32_ofInt (v : Word) : lo32 v = BitVec.ofInt 32 v.toNat := by
  rw [BitVec.ofInt_natCast, lo32, BitVec.ofNat_toNat]

theorem word_ofInt (v : Word) : BitVec.ofInt 64 v.toNat = v := by
  rw [BitVec.ofInt_natCast, BitVec.ofNat_toNat, BitVec.setWidth_eq]

/-- The end of an instruction that writes one register is the state the statements name. -/
theorem writeReg_wrote (s : State) (r : Reg) (v : Word) : s.writeReg r v = .next (s.wrote r v) := rfl

end Sys2Proof.Machine
end

