-- ==== Sys2Proof/Tests/Slice0.lean ====
section
/-! SUPPORT. Our own tests: the smoke test of well-formedness, a word for every constructor's decoding, the vectors
of spec/95_test_vectors.md, and for every statement with hypotheses a concrete case that meets them. -/

open Sys2Proof Sys2Proof.Machine

namespace Sys2Proof.Tests

set_option Elab.async false

/-! ### Well-formedness: each check refuses an ill-formed term -/

theorem test_wf_refuses_wide_immediate : (Instr.loadImm 3 0x80000000).wf = false := by decide
theorem test_wf_refuses_wide_second_immediate : (Instr.storeImmU8 0 0x123456789).wf = false := by decide
theorem test_wf_refuses_far_offset : (Instr.jump 0x80000000).wf = false := by decide
theorem test_wf_refuses_far_negative_offset : (Instr.branchEqImm 0 0 (-0x80000001)).wf = false := by decide
theorem test_wf_accepts_bounds :
    (Instr.branchEqImm 12 0xFFFFFFFF80000000 0x7FFFFFFF).wf = true ∧ (Instr.jump (-0x80000000)).wf = true ∧
      (Instr.loadImm64 0 0x8000000000000000).wf = true := by decide
theorem test_image_refuses_mask_length : ({ code := [0], mask := [true, false] } : Image).wf = false := by decide
theorem test_image_refuses_far_table_entry : ({ jumpTable := [0x100000000] } : Image).wf = false := by decide

theorem test_image_refuses_long_code (p : Image) (h : p.code.length = config.maxCodeLen + 1) : p.wf = false := by
  simp [Image.wf, h]

/-! ### Decoding: one word for every constructor, written out from 30_encoding.md R109 to R121 -/

/-- The bytes decode to the instruction, and the instruction encodes to the bytes. -/
def agrees (w : List Byte × Instr) : Bool :=
  (decode w.1 (w.1.length - 1)).toOption == some w.2 && encode w.2 == w.1

/-- The step answers a next state. -/
def isNext {σ φ ρ : Type} : Host.Outcome σ φ ρ → Bool
  | .next _ => true
  | _ => false

/-- NO_ARGUMENTS, 30_encoding.md R109. -/
def noArgumentsWords : List (List Byte × Instr) :=
  [([0x00], .trap),
   ([0x01], .fallthrough)]

theorem test_noArguments_words : noArgumentsWords.all agrees = true := by decide +kernel

/-- ONE_IMMEDIATE, 30_encoding.md R110. -/
def oneImmediateWords : List (List Byte × Instr) :=
  [([0x0A, 0xFE, 0x01], .ecalli 0x1FE)]

theorem test_oneImmediate_words : oneImmediateWords.all agrees = true := by decide +kernel

/-- ONE_REGISTER_ONE_EXTENDED_WIDTH_IMMEDIATE, 30_encoding.md R111. -/
def oneRegisterOneExtendedWidthImmediateWords : List (List Byte × Instr) :=
  [([0x14, 0x05, 0x88, 0x77, 0x66, 0x55, 0x44, 0x33, 0x22, 0x91], .loadImm64 5 0x9122334455667788)]

theorem test_oneRegisterOneExtendedWidthImmediate_words :
    oneRegisterOneExtendedWidthImmediateWords.all agrees = true := by decide +kernel

/-- TWO_IMMEDIATES, 30_encoding.md R112. -/
def twoImmediatesWords : List (List Byte × Instr) :=
  [([0x1E, 0x03, 0x00, 0x10, 0x02, 0x80], .storeImmU8 0x21000 0xFFFFFFFFFFFFFF80),
   ([0x1F, 0x03, 0x00, 0x10, 0x02, 0x80], .storeImmU16 0x21000 0xFFFFFFFFFFFFFF80),
   ([0x20, 0x03, 0x00, 0x10, 0x02, 0x80], .storeImmU32 0x21000 0xFFFFFFFFFFFFFF80),
   ([0x21, 0x03, 0x00, 0x10, 0x02, 0x80], .storeImmU64 0x21000 0xFFFFFFFFFFFFFF80)]

theorem test_twoImmediates_words : twoImmediatesWords.all agrees = true := by decide +kernel

/-- ONE_OFFSET, 30_encoding.md R113. -/
def oneOffsetWords : List (List Byte × Instr) :=
  [([0x28, 0x00, 0xFF], .jump (-256))]

theorem test_oneOffset_words : oneOffsetWords.all agrees = true := by decide +kernel

/-- ONE_REGISTER_ONE_IMMEDIATE, 30_encoding.md R114. -/
def oneRegisterOneImmediateWords : List (List Byte × Instr) :=
  [([0x32, 0x09, 0x34, 0x92], .jumpInd 9 0xFFFFFFFFFFFF9234),
   ([0x33, 0x09, 0x34, 0x92], .loadImm 9 0xFFFFFFFFFFFF9234),
   ([0x34, 0x09, 0x34, 0x92], .loadU8 9 0xFFFFFFFFFFFF9234),
   ([0x35, 0x09, 0x34, 0x92], .loadI8 9 0xFFFFFFFFFFFF9234),
   ([0x36, 0x09, 0x34, 0x92], .loadU16 9 0xFFFFFFFFFFFF9234),
   ([0x37, 0x09, 0x34, 0x92], .loadI16 9 0xFFFFFFFFFFFF9234),
   ([0x38, 0x09, 0x34, 0x92], .loadU32 9 0xFFFFFFFFFFFF9234),
   ([0x39, 0x09, 0x34, 0x92], .loadI32 9 0xFFFFFFFFFFFF9234),
   ([0x3A, 0x09, 0x34, 0x92], .loadU64 9 0xFFFFFFFFFFFF9234),
   ([0x3B, 0x09, 0x34, 0x92], .storeU8 9 0xFFFFFFFFFFFF9234),
   ([0x3C, 0x09, 0x34, 0x92], .storeU16 9 0xFFFFFFFFFFFF9234),
   ([0x3D, 0x09, 0x34, 0x92], .storeU32 9 0xFFFFFFFFFFFF9234),
   ([0x3E, 0x09, 0x34, 0x92], .storeU64 9 0xFFFFFFFFFFFF9234)]

theorem test_oneRegisterOneImmediate_words : oneRegisterOneImmediateWords.all agrees = true := by decide +kernel

/-- ONE_REGISTER_TWO_IMMEDIATES, 30_encoding.md R115. -/
def oneRegisterTwoImmediatesWords : List (List Byte × Instr) :=
  [([0x46, 0x2B, 0x00, 0x01, 0xFB], .storeImmIndU8 11 0x100 0xFFFFFFFFFFFFFFFB),
   ([0x47, 0x2B, 0x00, 0x01, 0xFB], .storeImmIndU16 11 0x100 0xFFFFFFFFFFFFFFFB),
   ([0x48, 0x2B, 0x00, 0x01, 0xFB], .storeImmIndU32 11 0x100 0xFFFFFFFFFFFFFFFB),
   ([0x49, 0x2B, 0x00, 0x01, 0xFB], .storeImmIndU64 11 0x100 0xFFFFFFFFFFFFFFFB)]

theorem test_oneRegisterTwoImmediates_words : oneRegisterTwoImmediatesWords.all agrees = true := by decide +kernel

/-- ONE_REGISTER_ONE_IMMEDIATE_ONE_OFFSET, 30_encoding.md R116. -/
def oneRegisterOneImmediateOneOffsetWords : List (List Byte × Instr) :=
  [([0x50, 0x13, 0xFF, 0x00, 0x01], .loadImmJump 3 0xFFFFFFFFFFFFFFFF 256),
   ([0x51, 0x13, 0xFF, 0x00, 0x01], .branchEqImm 3 0xFFFFFFFFFFFFFFFF 256),
   ([0x52, 0x13, 0xFF, 0x00, 0x01], .branchNeImm 3 0xFFFFFFFFFFFFFFFF 256),
   ([0x53, 0x13, 0xFF, 0x00, 0x01], .branchLtUImm 3 0xFFFFFFFFFFFFFFFF 256),
   ([0x54, 0x13, 0xFF, 0x00, 0x01], .branchLeUImm 3 0xFFFFFFFFFFFFFFFF 256),
   ([0x55, 0x13, 0xFF, 0x00, 0x01], .branchGeUImm 3 0xFFFFFFFFFFFFFFFF 256),
   ([0x56, 0x13, 0xFF, 0x00, 0x01], .branchGtUImm 3 0xFFFFFFFFFFFFFFFF 256),
   ([0x57, 0x13, 0xFF, 0x00, 0x01], .branchLtSImm 3 0xFFFFFFFFFFFFFFFF 256),
   ([0x58, 0x13, 0xFF, 0x00, 0x01], .branchLeSImm 3 0xFFFFFFFFFFFFFFFF 256),
   ([0x59, 0x13, 0xFF, 0x00, 0x01], .branchGeSImm 3 0xFFFFFFFFFFFFFFFF 256),
   ([0x5A, 0x13, 0xFF, 0x00, 0x01], .branchGtSImm 3 0xFFFFFFFFFFFFFFFF 256)]

theorem test_oneRegisterOneImmediateOneOffset_words :
    oneRegisterOneImmediateOneOffsetWords.all agrees = true := by decide +kernel

/-- TWO_REGISTERS, 30_encoding.md R117. -/
def twoRegistersWords : List (List Byte × Instr) :=
  [([0x64, 0x7C], .moveReg 12 7),
   ([0x66, 0x7C], .countSetBits64 12 7),
   ([0x67, 0x7C], .countSetBits32 12 7),
   ([0x68, 0x7C], .leadingZeroBits64 12 7),
   ([0x69, 0x7C], .leadingZeroBits32 12 7),
   ([0x6A, 0x7C], .trailingZeroBits64 12 7),
   ([0x6B, 0x7C], .trailingZeroBits32 12 7),
   ([0x6C, 0x7C], .signExtend8 12 7),
   ([0x6D, 0x7C], .signExtend16 12 7),
   ([0x6E, 0x7C], .zeroExtend16 12 7),
   ([0x6F, 0x7C], .reverseBytes 12 7)]

theorem test_twoRegisters_words : twoRegistersWords.all agrees = true := by decide +kernel

/-- TWO_REGISTERS_ONE_IMMEDIATE, 30_encoding.md R118. -/
def twoRegistersOneImmediate1Words : List (List Byte × Instr) :=
  [([0x78, 0xA4, 0x01, 0x02, 0x03, 0x84], .storeIndU8 4 10 0xFFFFFFFF84030201),
   ([0x79, 0xA4, 0x01, 0x02, 0x03, 0x84], .storeIndU16 4 10 0xFFFFFFFF84030201),
   ([0x7A, 0xA4, 0x01, 0x02, 0x03, 0x84], .storeIndU32 4 10 0xFFFFFFFF84030201),
   ([0x7B, 0xA4, 0x01, 0x02, 0x03, 0x84], .storeIndU64 4 10 0xFFFFFFFF84030201),
   ([0x7C, 0xA4, 0x01, 0x02, 0x03, 0x84], .loadIndU8 4 10 0xFFFFFFFF84030201),
   ([0x7D, 0xA4, 0x01, 0x02, 0x03, 0x84], .loadIndI8 4 10 0xFFFFFFFF84030201),
   ([0x7E, 0xA4, 0x01, 0x02, 0x03, 0x84], .loadIndU16 4 10 0xFFFFFFFF84030201),
   ([0x7F, 0xA4, 0x01, 0x02, 0x03, 0x84], .loadIndI16 4 10 0xFFFFFFFF84030201),
   ([0x80, 0xA4, 0x01, 0x02, 0x03, 0x84], .loadIndU32 4 10 0xFFFFFFFF84030201),
   ([0x81, 0xA4, 0x01, 0x02, 0x03, 0x84], .loadIndI32 4 10 0xFFFFFFFF84030201),
   ([0x82, 0xA4, 0x01, 0x02, 0x03, 0x84], .loadIndU64 4 10 0xFFFFFFFF84030201),
   ([0x83, 0xA4, 0x01, 0x02, 0x03, 0x84], .addImm32 4 10 0xFFFFFFFF84030201),
   ([0x84, 0xA4, 0x01, 0x02, 0x03, 0x84], .andImm 4 10 0xFFFFFFFF84030201),
   ([0x85, 0xA4, 0x01, 0x02, 0x03, 0x84], .xorImm 4 10 0xFFFFFFFF84030201),
   ([0x86, 0xA4, 0x01, 0x02, 0x03, 0x84], .orImm 4 10 0xFFFFFFFF84030201),
   ([0x87, 0xA4, 0x01, 0x02, 0x03, 0x84], .mulImm32 4 10 0xFFFFFFFF84030201),
   ([0x88, 0xA4, 0x01, 0x02, 0x03, 0x84], .setLtUImm 4 10 0xFFFFFFFF84030201),
   ([0x89, 0xA4, 0x01, 0x02, 0x03, 0x84], .setLtSImm 4 10 0xFFFFFFFF84030201),
   ([0x8A, 0xA4, 0x01, 0x02, 0x03, 0x84], .shloLImm32 4 10 0xFFFFFFFF84030201),
   ([0x8B, 0xA4, 0x01, 0x02, 0x03, 0x84], .shloRImm32 4 10 0xFFFFFFFF84030201),
   ([0x8C, 0xA4, 0x01, 0x02, 0x03, 0x84], .sharRImm32 4 10 0xFFFFFFFF84030201),
   ([0x8D, 0xA4, 0x01, 0x02, 0x03, 0x84], .negAddImm32 4 10 0xFFFFFFFF84030201),
   ([0x8E, 0xA4, 0x01, 0x02, 0x03, 0x84], .setGtUImm 4 10 0xFFFFFFFF84030201),
   ([0x8F, 0xA4, 0x01, 0x02, 0x03, 0x84], .setGtSImm 4 10 0xFFFFFFFF84030201),
   ([0x90, 0xA4, 0x01, 0x02, 0x03, 0x84], .shloLImmAlt32 4 10 0xFFFFFFFF84030201),
   ([0x91, 0xA4, 0x01, 0x02, 0x03, 0x84], .shloRImmAlt32 4 10 0xFFFFFFFF84030201)]

theorem test_twoRegistersOneImmediate1_words : twoRegistersOneImmediate1Words.all agrees = true := by decide +kernel

/-- TWO_REGISTERS_ONE_IMMEDIATE, 30_encoding.md R118. -/
def twoRegistersOneImmediate2Words : List (List Byte × Instr) :=
  [([0x92, 0xA4, 0x01, 0x02, 0x03, 0x84], .sharRImmAlt32 4 10 0xFFFFFFFF84030201),
   ([0x93, 0xA4, 0x01, 0x02, 0x03, 0x84], .cmovIzImm 4 10 0xFFFFFFFF84030201),
   ([0x94, 0xA4, 0x01, 0x02, 0x03, 0x84], .cmovNzImm 4 10 0xFFFFFFFF84030201),
   ([0x95, 0xA4, 0x01, 0x02, 0x03, 0x84], .addImm64 4 10 0xFFFFFFFF84030201),
   ([0x96, 0xA4, 0x01, 0x02, 0x03, 0x84], .mulImm64 4 10 0xFFFFFFFF84030201),
   ([0x97, 0xA4, 0x01, 0x02, 0x03, 0x84], .shloLImm64 4 10 0xFFFFFFFF84030201),
   ([0x98, 0xA4, 0x01, 0x02, 0x03, 0x84], .shloRImm64 4 10 0xFFFFFFFF84030201),
   ([0x99, 0xA4, 0x01, 0x02, 0x03, 0x84], .sharRImm64 4 10 0xFFFFFFFF84030201),
   ([0x9A, 0xA4, 0x01, 0x02, 0x03, 0x84], .negAddImm64 4 10 0xFFFFFFFF84030201),
   ([0x9B, 0xA4, 0x01, 0x02, 0x03, 0x84], .shloLImmAlt64 4 10 0xFFFFFFFF84030201),
   ([0x9C, 0xA4, 0x01, 0x02, 0x03, 0x84], .shloRImmAlt64 4 10 0xFFFFFFFF84030201),
   ([0x9D, 0xA4, 0x01, 0x02, 0x03, 0x84], .sharRImmAlt64 4 10 0xFFFFFFFF84030201),
   ([0x9E, 0xA4, 0x01, 0x02, 0x03, 0x84], .rotR64Imm 4 10 0xFFFFFFFF84030201),
   ([0x9F, 0xA4, 0x01, 0x02, 0x03, 0x84], .rotR64ImmAlt 4 10 0xFFFFFFFF84030201),
   ([0xA0, 0xA4, 0x01, 0x02, 0x03, 0x84], .rotR32Imm 4 10 0xFFFFFFFF84030201),
   ([0xA1, 0xA4, 0x01, 0x02, 0x03, 0x84], .rotR32ImmAlt 4 10 0xFFFFFFFF84030201)]

theorem test_twoRegistersOneImmediate2_words : twoRegistersOneImmediate2Words.all agrees = true := by decide +kernel

/-- TWO_REGISTERS_ONE_OFFSET, 30_encoding.md R119. -/
def twoRegistersOneOffsetWords : List (List Byte × Instr) :=
  [([0xAA, 0x12, 0xF9], .branchEq 2 1 (-7)),
   ([0xAB, 0x12, 0xF9], .branchNe 2 1 (-7)),
   ([0xAC, 0x12, 0xF9], .branchLtU 2 1 (-7)),
   ([0xAD, 0x12, 0xF9], .branchLtS 2 1 (-7)),
   ([0xAE, 0x12, 0xF9], .branchGeU 2 1 (-7)),
   ([0xAF, 0x12, 0xF9], .branchGeS 2 1 (-7))]

theorem test_twoRegistersOneOffset_words : twoRegistersOneOffsetWords.all agrees = true := by decide +kernel

/-- TWO_REGISTERS_TWO_IMMEDIATES, 30_encoding.md R120. -/
def twoRegistersTwoImmediatesWords : List (List Byte × Instr) :=
  [([0xB4, 0x86, 0x01, 0x7F, 0x80, 0x00], .loadImmJumpInd 6 8 0x7F 0x80)]

theorem test_twoRegistersTwoImmediates_words : twoRegistersTwoImmediatesWords.all agrees = true := by decide +kernel

/-- THREE_REGISTERS, 30_encoding.md R121. -/
def threeRegisters1Words : List (List Byte × Instr) :=
  [([0xBE, 0x31, 0x0B], .add32 11 1 3),
   ([0xBF, 0x31, 0x0B], .sub32 11 1 3),
   ([0xC0, 0x31, 0x0B], .mul32 11 1 3),
   ([0xC1, 0x31, 0x0B], .divU32 11 1 3),
   ([0xC2, 0x31, 0x0B], .divS32 11 1 3),
   ([0xC3, 0x31, 0x0B], .remU32 11 1 3),
   ([0xC4, 0x31, 0x0B], .remS32 11 1 3),
   ([0xC5, 0x31, 0x0B], .shloL32 11 1 3),
   ([0xC6, 0x31, 0x0B], .shloR32 11 1 3),
   ([0xC7, 0x31, 0x0B], .sharR32 11 1 3),
   ([0xC8, 0x31, 0x0B], .add64 11 1 3),
   ([0xC9, 0x31, 0x0B], .sub64 11 1 3),
   ([0xCA, 0x31, 0x0B], .mul64 11 1 3),
   ([0xCB, 0x31, 0x0B], .divU64 11 1 3),
   ([0xCC, 0x31, 0x0B], .divS64 11 1 3),
   ([0xCD, 0x31, 0x0B], .remU64 11 1 3),
   ([0xCE, 0x31, 0x0B], .remS64 11 1 3),
   ([0xCF, 0x31, 0x0B], .shloL64 11 1 3),
   ([0xD0, 0x31, 0x0B], .shloR64 11 1 3),
   ([0xD1, 0x31, 0x0B], .sharR64 11 1 3),
   ([0xD2, 0x31, 0x0B], .and 11 1 3),
   ([0xD3, 0x31, 0x0B], .xor 11 1 3),
   ([0xD4, 0x31, 0x0B], .or 11 1 3),
   ([0xD5, 0x31, 0x0B], .mulUpperSS 11 1 3),
   ([0xD6, 0x31, 0x0B], .mulUpperUU 11 1 3),
   ([0xD7, 0x31, 0x0B], .mulUpperSU 11 1 3)]

theorem test_threeRegisters1_words : threeRegisters1Words.all agrees = true := by decide +kernel

/-- THREE_REGISTERS, 30_encoding.md R121. -/
def threeRegisters2Words : List (List Byte × Instr) :=
  [([0xD8, 0x31, 0x0B], .setLtU 11 1 3),
   ([0xD9, 0x31, 0x0B], .setLtS 11 1 3),
   ([0xDA, 0x31, 0x0B], .cmovIz 11 1 3),
   ([0xDB, 0x31, 0x0B], .cmovNz 11 1 3),
   ([0xDC, 0x31, 0x0B], .rotL64 11 1 3),
   ([0xDD, 0x31, 0x0B], .rotL32 11 1 3),
   ([0xDE, 0x31, 0x0B], .rotR64 11 1 3),
   ([0xDF, 0x31, 0x0B], .rotR32 11 1 3),
   ([0xE0, 0x31, 0x0B], .andInv 11 1 3),
   ([0xE1, 0x31, 0x0B], .orInv 11 1 3),
   ([0xE2, 0x31, 0x0B], .xnor 11 1 3),
   ([0xE3, 0x31, 0x0B], .max 11 1 3),
   ([0xE4, 0x31, 0x0B], .maxU 11 1 3),
   ([0xE5, 0x31, 0x0B], .min 11 1 3),
   ([0xE6, 0x31, 0x0B], .minU 11 1 3)]

theorem test_threeRegisters2_words : threeRegisters2Words.all agrees = true := by decide +kernel


/-! ### The derived vectors of spec/95_test_vectors.md part 2, each one step -/

/-- One vector: code, mask, jump table, registers, memory, `pc`, gas before; register and memory changes, `pc`,
gas and status after. -/
structure Vec where
  code : List Byte
  mask : List Nat
  jumps : List Nat
  regs : List (Reg × Word)
  mem : Memory
  pc : CodeAddr
  gas : Int
  regsAfter : List (Reg × Word)
  cellsAfter : List (Nat × Byte)
  pcAfter : CodeAddr
  gasAfter : Int
  statusAfter : Status

/-- The state of a fresh reset. -/
def Vec.before (v : Vec) : State :=
  let p : Image := { code := v.code, mask := v.mask.map (· == 1), jumpTable := v.jumps }
  { State.reset with
    image := p, blocks := blockMap p, mem := v.mem, pc := v.pc, gas := BitVec.ofInt 64 v.gas
    regs := v.regs.foldl (fun r x => r.set x.1 x.2) (Vector.replicate 13 0) }

/-- The step leaves what the vector says, and every other register and byte as it was. -/
def Vec.holds (v : Vec) : Bool :=
  match step v.before with
  | .next t =>
    t.regs == v.regsAfter.foldl (fun r x => r.set x.1 x.2) v.before.regs &&
      t.mem == v.cellsAfter.foldl (fun m x => m.setByte x.1 x.2) v.mem &&
      t.pc == v.pcAfter && t.gas.toInt == v.gasAfter && t.status == v.statusAfter
  | _ => false

/-- The memory of section 2.6: page 32 Writable with eight bytes at 0x20000. -/
def loadMem : Memory :=
  ({ pages := [(32, .writable)] } : Memory).setBytes 0x20000 [0xF0, 0xDE, 0xBC, 0x9A, 0x78, 0x56, 0x34, 0x12]

/-- The memory of section 2.7: page 34 Readable besides. -/
def storeMem : Memory := { loadMem with pages := [(32, .writable), (34, .readable)] }

/-- Every page Absent. -/
def noMem : Memory := {}

/-- Section 2.1. -/
def math1Vectors : List Vec :=
  [⟨[0xBE, 0x10, 0x02], [1, 0, 0], [], [(0, 0x7fffffff), (1, 0x1)], noMem, 0, 10, [(2, 0xffffffff80000000)], [], 3, 9, .ok⟩,
   ⟨[0xBE, 0x10, 0x02], [1, 0, 0], [], [(0, 0x100000005), (1, 0x3)], noMem, 0, 10, [(2, 0x8)], [], 3, 9, .ok⟩,
   ⟨[0xC8, 0x10, 0x02], [1, 0, 0], [], [(0, 0xffffffffffffffff), (1, 0x1), (2, 0x7)], noMem, 0, 10, [(2, 0x0)], [], 3, 9, .ok⟩,
   ⟨[0x83, 0x21, 0xFF], [1, 0, 0], [], [(2, 0x0)], noMem, 0, 10, [(1, 0xffffffffffffffff)], [], 3, 9, .ok⟩,
   ⟨[0x95, 0x21, 0xF9], [1, 0, 0], [], [(2, 0x5)], noMem, 0, 10, [(1, 0xfffffffffffffffe)], [], 3, 9, .ok⟩,
   ⟨[0xBF, 0x10, 0x02], [1, 0, 0], [], [(0, 0x0), (1, 0x1)], noMem, 0, 10, [(2, 0xffffffffffffffff)], [], 3, 9, .ok⟩,
   ⟨[0xC9, 0x10, 0x02], [1, 0, 0], [], [(0, 0x8000000000000000), (1, 0x1)], noMem, 0, 10, [(2, 0x7fffffffffffffff)], [], 3, 9, .ok⟩,
   ⟨[0x8D, 0x21, 0x0A], [1, 0, 0], [], [(2, 0x3)], noMem, 0, 10, [(1, 0x7)], [], 3, 9, .ok⟩,
   ⟨[0x9A, 0x21], [1, 0], [], [(2, 0x1)], noMem, 0, 10, [(1, 0xffffffffffffffff)], [], 2, 9, .ok⟩,
   ⟨[0xC0, 0x10, 0x02], [1, 0, 0], [], [(0, 0x8000), (1, 0x10000)], noMem, 0, 10, [(2, 0xffffffff80000000)], [], 3, 9, .ok⟩,
   ⟨[0xCA, 0x10, 0x02], [1, 0, 0], [], [(0, 0xffffffffffffffff), (1, 0x2)], noMem, 0, 10, [(2, 0xfffffffffffffffe)], [], 3, 9, .ok⟩,
   ⟨[0x87, 0x21, 0x02], [1, 0, 0], [], [(2, 0x40000000)], noMem, 0, 10, [(1, 0xffffffff80000000)], [], 3, 9, .ok⟩,
   ⟨[0x96, 0x21, 0xFE], [1, 0, 0], [], [(2, 0x3)], noMem, 0, 10, [(1, 0xfffffffffffffffa)], [], 3, 9, .ok⟩,
   ⟨[0xD5, 0x10, 0x02], [1, 0, 0], [], [(0, 0x8000000000000000), (1, 0x8000000000000000)], noMem, 0, 10, [(2, 0x4000000000000000)], [], 3, 9, .ok⟩,
   ⟨[0xD6, 0x10, 0x02], [1, 0, 0], [], [(0, 0xffffffffffffffff), (1, 0xffffffffffffffff)], noMem, 0, 10, [(2, 0xfffffffffffffffe)], [], 3, 9, .ok⟩,
   ⟨[0xD7, 0x10, 0x02], [1, 0, 0], [], [(0, 0xffffffffffffffff), (1, 0xffffffffffffffff)], noMem, 0, 10, [(2, 0xffffffffffffffff)], [], 3, 9, .ok⟩,
   ⟨[0xC1, 0x10, 0x02], [1, 0, 0], [], [(0, 0x7), (1, 0x100000000)], noMem, 0, 10, [(2, 0xffffffffffffffff)], [], 3, 9, .ok⟩,
   ⟨[0xCB, 0x10, 0x02], [1, 0, 0], [], [(0, 0xffffffffffffffff), (1, 0x2)], noMem, 0, 10, [(2, 0x7fffffffffffffff)], [], 3, 9, .ok⟩,
   ⟨[0xCB, 0x10, 0x02], [1, 0, 0], [], [(0, 0x7), (1, 0x0)], noMem, 0, 10, [(2, 0xffffffffffffffff)], [], 3, 9, .ok⟩,
   ⟨[0xC2, 0x10, 0x02], [1, 0, 0], [], [(0, 0x80000000), (1, 0xffffffff)], noMem, 0, 10, [(2, 0xffffffff80000000)], [], 3, 9, .ok⟩]

theorem test_math1_vectors : math1Vectors.all Vec.holds = true := by decide +kernel

/-- Section 2.1. -/
def math2Vectors : List Vec :=
  [⟨[0xCC, 0x10, 0x02], [1, 0, 0], [], [(0, 0xfffffffffffffff9), (1, 0x2)], noMem, 0, 10, [(2, 0xfffffffffffffffd)], [], 3, 9, .ok⟩,
   ⟨[0xCC, 0x10, 0x02], [1, 0, 0], [], [(0, 0x8000000000000000), (1, 0xffffffffffffffff)], noMem, 0, 10, [(2, 0x8000000000000000)], [], 3, 9, .ok⟩,
   ⟨[0xC3, 0x10, 0x02], [1, 0, 0], [], [(0, 0x80000005), (1, 0x0)], noMem, 0, 10, [(2, 0xffffffff80000005)], [], 3, 9, .ok⟩,
   ⟨[0xCD, 0x10, 0x02], [1, 0, 0], [], [(0, 0x7), (1, 0x2)], noMem, 0, 10, [(2, 0x1)], [], 3, 9, .ok⟩,
   ⟨[0xC4, 0x10, 0x02], [1, 0, 0], [], [(0, 0xfffffff9), (1, 0x2)], noMem, 0, 10, [(2, 0xffffffffffffffff)], [], 3, 9, .ok⟩,
   ⟨[0xCE, 0x10, 0x02], [1, 0, 0], [], [(0, 0x7), (1, 0xfffffffffffffffe)], noMem, 0, 10, [(2, 0x1)], [], 3, 9, .ok⟩,
   ⟨[0xCE, 0x10, 0x02], [1, 0, 0], [], [(0, 0x8000000000000000), (1, 0xffffffffffffffff), (2, 0x5)], noMem, 0, 10, [(2, 0x0)], [], 3, 9, .ok⟩,
   ⟨[0xCE, 0x10, 0x02], [1, 0, 0], [], [(0, 0xfffffffffffffff9), (1, 0x0)], noMem, 0, 10, [(2, 0xfffffffffffffff9)], [], 3, 9, .ok⟩,
   ⟨[0xE3, 0x10, 0x02], [1, 0, 0], [], [(0, 0xffffffffffffffff), (1, 0x1)], noMem, 0, 10, [(2, 0x1)], [], 3, 9, .ok⟩,
   ⟨[0xE4, 0x10, 0x02], [1, 0, 0], [], [(0, 0xffffffffffffffff), (1, 0x1)], noMem, 0, 10, [(2, 0xffffffffffffffff)], [], 3, 9, .ok⟩,
   ⟨[0xE5, 0x10, 0x02], [1, 0, 0], [], [(0, 0xffffffffffffffff), (1, 0x1)], noMem, 0, 10, [(2, 0xffffffffffffffff)], [], 3, 9, .ok⟩,
   ⟨[0xE6, 0x10, 0x02], [1, 0, 0], [], [(0, 0xffffffffffffffff), (1, 0x1)], noMem, 0, 10, [(2, 0x1)], [], 3, 9, .ok⟩]

theorem test_math2_vectors : math2Vectors.all Vec.holds = true := by decide +kernel

/-- Section 2.2. -/
def shiftVectors : List Vec :=
  [⟨[0xC5, 0x10, 0x02], [1, 0, 0], [], [(0, 0x1), (1, 0x1f)], noMem, 0, 10, [(2, 0xffffffff80000000)], [], 3, 9, .ok⟩,
   ⟨[0xC5, 0x10, 0x02], [1, 0, 0], [], [(0, 0x3), (1, 0x21)], noMem, 0, 10, [(2, 0x6)], [], 3, 9, .ok⟩,
   ⟨[0xCF, 0x10, 0x02], [1, 0, 0], [], [(0, 0x1), (1, 0x40), (2, 0x9)], noMem, 0, 10, [(2, 0x1)], [], 3, 9, .ok⟩,
   ⟨[0xC6, 0x10, 0x02], [1, 0, 0], [], [(0, 0x80000000), (1, 0x0)], noMem, 0, 10, [(2, 0xffffffff80000000)], [], 3, 9, .ok⟩,
   ⟨[0xD0, 0x10, 0x02], [1, 0, 0], [], [(0, 0xffffffffffffffff), (1, 0x4)], noMem, 0, 10, [(2, 0xfffffffffffffff)], [], 3, 9, .ok⟩,
   ⟨[0xC7, 0x10, 0x02], [1, 0, 0], [], [(0, 0x80000000), (1, 0x4)], noMem, 0, 10, [(2, 0xfffffffff8000000)], [], 3, 9, .ok⟩,
   ⟨[0xD1, 0x10, 0x02], [1, 0, 0], [], [(0, 0x8000000000000000), (1, 0x3f)], noMem, 0, 10, [(2, 0xffffffffffffffff)], [], 3, 9, .ok⟩,
   ⟨[0x8A, 0x21, 0x04], [1, 0, 0], [], [(2, 0xfffffff)], noMem, 0, 10, [(1, 0xfffffffffffffff0)], [], 3, 9, .ok⟩,
   ⟨[0x97, 0x21, 0xFF], [1, 0, 0], [], [(2, 0x1)], noMem, 0, 10, [(1, 0x8000000000000000)], [], 3, 9, .ok⟩,
   ⟨[0x8B, 0x21, 0x04], [1, 0, 0], [], [(2, 0xffffffff80000000)], noMem, 0, 10, [(1, 0x8000000)], [], 3, 9, .ok⟩,
   ⟨[0x98, 0x21, 0x04], [1, 0, 0], [], [(2, 0xffffffff80000000)], noMem, 0, 10, [(1, 0xffffffff8000000)], [], 3, 9, .ok⟩,
   ⟨[0x8C, 0x21, 0x04], [1, 0, 0], [], [(2, 0x80000000)], noMem, 0, 10, [(1, 0xfffffffff8000000)], [], 3, 9, .ok⟩,
   ⟨[0x99, 0x21, 0x04], [1, 0, 0], [], [(2, 0x80000000)], noMem, 0, 10, [(1, 0x8000000)], [], 3, 9, .ok⟩,
   ⟨[0x90, 0x21, 0x01], [1, 0, 0], [], [(2, 0x23)], noMem, 0, 10, [(1, 0x8)], [], 3, 9, .ok⟩,
   ⟨[0x9B, 0x21, 0xFF], [1, 0, 0], [], [(2, 0x4)], noMem, 0, 10, [(1, 0xfffffffffffffff0)], [], 3, 9, .ok⟩,
   ⟨[0x91, 0x21, 0xFF], [1, 0, 0], [], [(2, 0x1c)], noMem, 0, 10, [(1, 0xf)], [], 3, 9, .ok⟩,
   ⟨[0x9C, 0x21, 0xFF], [1, 0, 0], [], [(2, 0x3c)], noMem, 0, 10, [(1, 0xf)], [], 3, 9, .ok⟩,
   ⟨[0x92, 0x21, 0x80], [1, 0, 0], [], [(2, 0x4)], noMem, 0, 10, [(1, 0xfffffffffffffff8)], [], 3, 9, .ok⟩,
   ⟨[0x9D, 0x21, 0x80], [1, 0, 0], [], [(2, 0x44)], noMem, 0, 10, [(1, 0xfffffffffffffff8)], [], 3, 9, .ok⟩]

theorem test_shift_vectors : shiftVectors.all Vec.holds = true := by decide +kernel

/-- Section 2.3. -/
def bit1Vectors : List Vec :=
  [⟨[0xD2, 0x10, 0x02], [1, 0, 0], [], [(0, 0xff00ff00ff00ff00), (1, 0xff00ff00ff00ff0)], noMem, 0, 10, [(2, 0xf000f000f000f00)], [], 3, 9, .ok⟩,
   ⟨[0xD3, 0x10, 0x02], [1, 0, 0], [], [(0, 0xff00ff00ff00ff00), (1, 0xff00ff00ff00ff0)], noMem, 0, 10, [(2, 0xf0f0f0f0f0f0f0f0)], [], 3, 9, .ok⟩,
   ⟨[0xD4, 0x10, 0x02], [1, 0, 0], [], [(0, 0xff00ff00ff00ff00), (1, 0xff00ff00ff00ff0)], noMem, 0, 10, [(2, 0xfff0fff0fff0fff0)], [], 3, 9, .ok⟩,
   ⟨[0x84, 0x21, 0xF0], [1, 0, 0], [], [(2, 0x123456789abcdeff)], noMem, 0, 10, [(1, 0x123456789abcdef0)], [], 3, 9, .ok⟩,
   ⟨[0x85, 0x21, 0xFF], [1, 0, 0], [], [(2, 0x123456789abcdef0)], noMem, 0, 10, [(1, 0xedcba9876543210f)], [], 3, 9, .ok⟩,
   ⟨[0x86, 0x21, 0x0F], [1, 0, 0], [], [(2, 0x123456789abcdef0)], noMem, 0, 10, [(1, 0x123456789abcdeff)], [], 3, 9, .ok⟩,
   ⟨[0xE0, 0x10, 0x02], [1, 0, 0], [], [(0, 0xff00ff00ff00ff00), (1, 0xff00ff00ff00ff0)], noMem, 0, 10, [(2, 0xf000f000f000f000)], [], 3, 9, .ok⟩,
   ⟨[0xE1, 0x10, 0x02], [1, 0, 0], [], [(0, 0xff00ff00ff00ff00), (1, 0xff00ff00ff00ff0)], noMem, 0, 10, [(2, 0xff0fff0fff0fff0f)], [], 3, 9, .ok⟩,
   ⟨[0xE2, 0x10, 0x02], [1, 0, 0], [], [(0, 0xff00ff00ff00ff00), (1, 0xff00ff00ff00ff0)], noMem, 0, 10, [(2, 0xf0f0f0f0f0f0f0f)], [], 3, 9, .ok⟩,
   ⟨[0xDC, 0x10, 0x02], [1, 0, 0], [], [(0, 0x123456789abcdef0), (1, 0x8)], noMem, 0, 10, [(2, 0x3456789abcdef012)], [], 3, 9, .ok⟩,
   ⟨[0xDD, 0x10, 0x02], [1, 0, 0], [], [(0, 0x123456789abcdef0), (1, 0x8)], noMem, 0, 10, [(2, 0xffffffffbcdef09a)], [], 3, 9, .ok⟩,
   ⟨[0xDE, 0x10, 0x02], [1, 0, 0], [], [(0, 0x123456789abcdef0), (1, 0x44)], noMem, 0, 10, [(2, 0x123456789abcdef)], [], 3, 9, .ok⟩,
   ⟨[0xDF, 0x10, 0x02], [1, 0, 0], [], [(0, 0x123456789abcdef0), (1, 0x4)], noMem, 0, 10, [(2, 0x9abcdef)], [], 3, 9, .ok⟩,
   ⟨[0x9E, 0x21, 0x08], [1, 0, 0], [], [(2, 0x123456789abcdef0)], noMem, 0, 10, [(1, 0xf0123456789abcde)], [], 3, 9, .ok⟩,
   ⟨[0x9F, 0x21, 0x34, 0x12], [1, 0, 0, 0], [], [(2, 0x4)], noMem, 0, 10, [(1, 0x4000000000000123)], [], 4, 9, .ok⟩,
   ⟨[0xA0, 0x21, 0x08], [1, 0, 0], [], [(2, 0x123456789abcdef0)], noMem, 0, 10, [(1, 0xfffffffff09abcde)], [], 3, 9, .ok⟩,
   ⟨[0xA1, 0x21, 0xFE], [1, 0, 0], [], [(2, 0x1)], noMem, 0, 10, [(1, 0x7fffffff)], [], 3, 9, .ok⟩,
   ⟨[0x66, 0x21], [1, 0], [], [(2, 0x123456789abcdef0)], noMem, 0, 10, [(1, 0x20)], [], 2, 9, .ok⟩,
   ⟨[0x67, 0x21], [1, 0], [], [(2, 0x123456789abcdef0)], noMem, 0, 10, [(1, 0x13)], [], 2, 9, .ok⟩,
   ⟨[0x68, 0x21], [1, 0], [], [(2, 0x123456789abcdef0)], noMem, 0, 10, [(1, 0x3)], [], 2, 9, .ok⟩]

theorem test_bit1_vectors : bit1Vectors.all Vec.holds = true := by decide +kernel

/-- Section 2.3. -/
def bit2Vectors : List Vec :=
  [⟨[0x68, 0x21], [1, 0], [], [(2, 0x0), (1, 0x7)], noMem, 0, 10, [(1, 0x40)], [], 2, 9, .ok⟩,
   ⟨[0x69, 0x21], [1, 0], [], [(2, 0xffffffff00000001)], noMem, 0, 10, [(1, 0x1f)], [], 2, 9, .ok⟩,
   ⟨[0x6A, 0x21], [1, 0], [], [(2, 0x123456789abcdef0)], noMem, 0, 10, [(1, 0x4)], [], 2, 9, .ok⟩,
   ⟨[0x6B, 0x21], [1, 0], [], [(2, 0x100000000)], noMem, 0, 10, [(1, 0x20)], [], 2, 9, .ok⟩,
   ⟨[0x6C, 0x21], [1, 0], [], [(2, 0x1280)], noMem, 0, 10, [(1, 0xffffffffffffff80)], [], 2, 9, .ok⟩,
   ⟨[0x6D, 0x21], [1, 0], [], [(2, 0x12348000)], noMem, 0, 10, [(1, 0xffffffffffff8000)], [], 2, 9, .ok⟩,
   ⟨[0x6E, 0x21], [1, 0], [], [(2, 0x123456789abcdef0)], noMem, 0, 10, [(1, 0xdef0)], [], 2, 9, .ok⟩,
   ⟨[0x6F, 0x21], [1, 0], [], [(2, 0x123456789abcdef0)], noMem, 0, 10, [(1, 0xf0debc9a78563412)], [], 2, 9, .ok⟩]

theorem test_bit2_vectors : bit2Vectors.all Vec.holds = true := by decide +kernel

/-- Section 2.4. -/
def booleanVectors : List Vec :=
  [⟨[0xD8, 0x10, 0x02], [1, 0, 0], [], [(0, 0x1), (1, 0xffffffffffffffff)], noMem, 0, 10, [(2, 0x1)], [], 3, 9, .ok⟩,
   ⟨[0xD9, 0x10, 0x02], [1, 0, 0], [], [(0, 0x1), (1, 0xffffffffffffffff), (2, 0x9)], noMem, 0, 10, [(2, 0x0)], [], 3, 9, .ok⟩,
   ⟨[0x88, 0x21, 0xFF], [1, 0, 0], [], [(2, 0x5)], noMem, 0, 10, [(1, 0x1)], [], 3, 9, .ok⟩,
   ⟨[0x89, 0x21, 0xFF], [1, 0, 0], [], [(2, 0x5), (1, 0x9)], noMem, 0, 10, [(1, 0x0)], [], 3, 9, .ok⟩,
   ⟨[0x8E, 0x21, 0x0A], [1, 0, 0], [], [(2, 0xb)], noMem, 0, 10, [(1, 0x1)], [], 3, 9, .ok⟩,
   ⟨[0x8E, 0x21, 0x0A], [1, 0, 0], [], [(2, 0xa), (1, 0x9)], noMem, 0, 10, [(1, 0x0)], [], 3, 9, .ok⟩,
   ⟨[0x8F, 0x21, 0x05], [1, 0, 0], [], [(2, 0xffffffffffffffff), (1, 0x9)], noMem, 0, 10, [(1, 0x0)], [], 3, 9, .ok⟩]

theorem test_boolean_vectors : booleanVectors.all Vec.holds = true := by decide +kernel

/-- Section 2.5. -/
def moveVectors : List Vec :=
  [⟨[0x64, 0x21], [1, 0], [], [(2, 0xdeadbeef00000001)], noMem, 0, 10, [(1, 0xdeadbeef00000001)], [], 2, 9, .ok⟩,
   ⟨[0xDA, 0x10, 0x02], [1, 0, 0], [], [(0, 0x7), (1, 0x0), (2, 0x9)], noMem, 0, 10, [(2, 0x7)], [], 3, 9, .ok⟩,
   ⟨[0xDA, 0x10, 0x02], [1, 0, 0], [], [(0, 0x7), (1, 0x100000000), (2, 0x9)], noMem, 0, 10, [], [], 3, 9, .ok⟩,
   ⟨[0xDB, 0x10, 0x02], [1, 0, 0], [], [(0, 0x7), (1, 0x1), (2, 0x9)], noMem, 0, 10, [(2, 0x7)], [], 3, 9, .ok⟩,
   ⟨[0x93, 0x21, 0xFF], [1, 0, 0], [], [(1, 0x9), (2, 0x0)], noMem, 0, 10, [(1, 0xffffffffffffffff)], [], 3, 9, .ok⟩,
   ⟨[0x94, 0x21, 0x34, 0x12], [1, 0, 0, 0], [], [(1, 0x9), (2, 0x0)], noMem, 0, 10, [], [], 4, 9, .ok⟩,
   ⟨[0x33, 0x03, 0x00, 0x00, 0x00, 0x80], [1, 0, 0, 0, 0, 0], [], [], noMem, 0, 10, [(3, 0xffffffff80000000)], [], 6, 9, .ok⟩,
   ⟨[0x33, 0x03], [1, 0], [], [(3, 0x5)], noMem, 0, 10, [(3, 0x0)], [], 2, 9, .ok⟩,
   ⟨[0x14, 0x05, 0x88, 0x77, 0x66, 0x55, 0x44, 0x33, 0x22, 0x11], [1, 0, 0, 0, 0, 0, 0, 0, 0, 0], [], [], noMem, 0, 10, [(5, 0x1122334455667788)], [], 10, 9, .ok⟩]

theorem test_move_vectors : moveVectors.all Vec.holds = true := by decide +kernel

/-- Section 2.6. -/
def loadVectors : List Vec :=
  [⟨[0x34, 0x01, 0x01, 0x00, 0x02], [1, 0, 0, 0, 0], [], [], loadMem, 0, 10, [(1, 0xde)], [], 5, 9, .ok⟩,
   ⟨[0x35, 0x01, 0x01, 0x00, 0x02], [1, 0, 0, 0, 0], [], [], loadMem, 0, 10, [(1, 0xffffffffffffffde)], [], 5, 9, .ok⟩,
   ⟨[0x36, 0x01, 0x00, 0x00, 0x02], [1, 0, 0, 0, 0], [], [], loadMem, 0, 10, [(1, 0xdef0)], [], 5, 9, .ok⟩,
   ⟨[0x37, 0x01, 0x00, 0x00, 0x02], [1, 0, 0, 0, 0], [], [], loadMem, 0, 10, [(1, 0xffffffffffffdef0)], [], 5, 9, .ok⟩,
   ⟨[0x38, 0x01, 0x00, 0x00, 0x02], [1, 0, 0, 0, 0], [], [], loadMem, 0, 10, [(1, 0x9abcdef0)], [], 5, 9, .ok⟩,
   ⟨[0x39, 0x01, 0x00, 0x00, 0x02], [1, 0, 0, 0, 0], [], [], loadMem, 0, 10, [(1, 0xffffffff9abcdef0)], [], 5, 9, .ok⟩,
   ⟨[0x3A, 0x01, 0x00, 0x00, 0x02], [1, 0, 0, 0, 0], [], [], loadMem, 0, 10, [(1, 0x123456789abcdef0)], [], 5, 9, .ok⟩,
   ⟨[0x3A, 0x01, 0xF9, 0x0F, 0x02], [1, 0, 0, 0, 0], [], [(1, 0x5)], loadMem, 0, 10, [], [], 0, 9, .panic⟩,
   ⟨[0x34, 0x01], [1, 0], [], [(1, 0x5)], loadMem, 0, 10, [], [], 0, 9, .panic⟩,
   ⟨[0x7C, 0x21, 0x01], [1, 0, 0], [], [(2, 0x20000)], loadMem, 0, 10, [(1, 0xde)], [], 3, 9, .ok⟩,
   ⟨[0x7D, 0x21, 0xFF], [1, 0, 0], [], [(2, 0x20002)], loadMem, 0, 10, [(1, 0xffffffffffffffde)], [], 3, 9, .ok⟩,
   ⟨[0x7E, 0x21, 0x02], [1, 0, 0], [], [(2, 0x20000)], loadMem, 0, 10, [(1, 0x9abc)], [], 3, 9, .ok⟩,
   ⟨[0x7F, 0x21, 0x02], [1, 0, 0], [], [(2, 0x20000)], loadMem, 0, 10, [(1, 0xffffffffffff9abc)], [], 3, 9, .ok⟩,
   ⟨[0x80, 0x21, 0x04], [1, 0, 0], [], [(2, 0x20000)], loadMem, 0, 10, [(1, 0x12345678)], [], 3, 9, .ok⟩,
   ⟨[0x81, 0x21], [1, 0], [], [(2, 0x20000)], loadMem, 0, 10, [(1, 0xffffffff9abcdef0)], [], 2, 9, .ok⟩,
   ⟨[0x82, 0x21], [1, 0], [], [(2, 0x100020000)], loadMem, 0, 10, [(1, 0x123456789abcdef0)], [], 2, 9, .ok⟩,
   ⟨[0x80, 0x21], [1, 0], [], [(2, 0xfffffffe), (1, 0x5)], loadMem, 0, 10, [], [], 0, 9, .panic⟩]

theorem test_load_vectors : loadVectors.all Vec.holds = true := by decide +kernel

/-- Section 2.7. -/
def storeVectors : List Vec :=
  [⟨[0x3B, 0x02, 0x00, 0x00, 0x02], [1, 0, 0, 0, 0], [], [(2, 0x1234)], storeMem, 0, 10, [], [(0x20000, 0x34)], 5, 9, .ok⟩,
   ⟨[0x3C, 0x02, 0x00, 0x00, 0x02], [1, 0, 0, 0, 0], [], [(2, 0xaabbccdd)], storeMem, 0, 10, [], [(0x20000, 0xdd), (0x20001, 0xcc)], 5, 9, .ok⟩,
   ⟨[0x3D, 0x02, 0x04, 0x00, 0x02], [1, 0, 0, 0, 0], [], [(2, 0x1122334455667788)], storeMem, 0, 10, [], [(0x20004, 0x88), (0x20005, 0x77), (0x20006, 0x66), (0x20007, 0x55)], 5, 9, .ok⟩,
   ⟨[0x3E, 0x02, 0x08, 0x00, 0x02], [1, 0, 0, 0, 0], [], [(2, 0x1122334455667788)], storeMem, 0, 10, [], [(0x20008, 0x88), (0x20009, 0x77), (0x2000a, 0x66), (0x2000b, 0x55), (0x2000c, 0x44), (0x2000d, 0x33), (0x2000e, 0x22), (0x2000f, 0x11)], 5, 9, .ok⟩,
   ⟨[0x3B, 0x02, 0x00, 0x20, 0x02], [1, 0, 0, 0, 0], [], [(2, 0x1)], storeMem, 0, 10, [], [], 0, 9, .panic⟩,
   ⟨[0x78, 0x12, 0x05], [1, 0, 0], [], [(1, 0x20000), (2, 0xff)], storeMem, 0, 10, [], [(0x20005, 0xff)], 3, 9, .ok⟩,
   ⟨[0x79, 0x12, 0xFE], [1, 0, 0], [], [(1, 0x20004), (2, 0xbeef)], storeMem, 0, 10, [], [(0x20002, 0xef), (0x20003, 0xbe)], 3, 9, .ok⟩,
   ⟨[0x7A, 0x12], [1, 0], [], [(1, 0x20ffe), (2, 0xaabbccdd)], storeMem, 0, 10, [], [], 0, 9, .panic⟩,
   ⟨[0x7B, 0x12, 0x08], [1, 0, 0], [], [(1, 0x20000), (2, 0xffffffffffffffff)], storeMem, 0, 10, [], [(0x20008, 0xff), (0x20009, 0xff), (0x2000a, 0xff), (0x2000b, 0xff), (0x2000c, 0xff), (0x2000d, 0xff), (0x2000e, 0xff), (0x2000f, 0xff)], 3, 9, .ok⟩,
   ⟨[0x1E, 0x03, 0x00, 0x00, 0x02, 0x5A], [1, 0, 0, 0, 0, 0], [], [], storeMem, 0, 10, [], [(0x20000, 0x5a)], 6, 9, .ok⟩,
   ⟨[0x1F, 0x03, 0x00, 0x00, 0x02, 0xFE], [1, 0, 0, 0, 0, 0], [], [], storeMem, 0, 10, [], [(0x20000, 0xfe), (0x20001, 0xff)], 6, 9, .ok⟩,
   ⟨[0x20, 0x03, 0x00, 0x00, 0x02, 0x34, 0x12], [1, 0, 0, 0, 0, 0, 0], [], [], storeMem, 0, 10, [], [(0x20000, 0x34), (0x20001, 0x12), (0x20002, 0x0), (0x20003, 0x0)], 7, 9, .ok⟩,
   ⟨[0x21, 0x03, 0x00, 0x00, 0x02, 0xFF], [1, 0, 0, 0, 0, 0], [], [], storeMem, 0, 10, [], [(0x20000, 0xff), (0x20001, 0xff), (0x20002, 0xff), (0x20003, 0xff), (0x20004, 0xff), (0x20005, 0xff), (0x20006, 0xff), (0x20007, 0xff)], 6, 9, .ok⟩,
   ⟨[0x46, 0x11, 0x03, 0x7F], [1, 0, 0, 0], [], [(1, 0x20000)], storeMem, 0, 10, [], [(0x20003, 0x7f)], 4, 9, .ok⟩,
   ⟨[0x47, 0x11, 0x08, 0x34, 0x12], [1, 0, 0, 0, 0], [], [(1, 0x20000)], storeMem, 0, 10, [], [(0x20008, 0x34), (0x20009, 0x12)], 5, 9, .ok⟩,
   ⟨[0x48, 0x01, 0xFF], [1, 0, 0], [], [(1, 0x20000)], storeMem, 0, 10, [], [(0x20000, 0xff), (0x20001, 0xff), (0x20002, 0xff), (0x20003, 0xff)], 3, 9, .ok⟩,
   ⟨[0x49, 0x11, 0x10, 0x80], [1, 0, 0, 0], [], [(1, 0x20000)], storeMem, 0, 10, [], [(0x20010, 0x80), (0x20011, 0xff), (0x20012, 0xff), (0x20013, 0xff), (0x20014, 0xff), (0x20015, 0xff), (0x20016, 0xff), (0x20017, 0xff)], 4, 9, .ok⟩]

theorem test_store_vectors : storeVectors.all Vec.holds = true := by decide +kernel

/-- Section 2.8. -/
def control1Vectors : List Vec :=
  [⟨[0x28, 0x03, 0x00, 0x01], [1, 0, 1, 1], [], [], noMem, 0, 10, [], [], 3, 9, .ok⟩,
   ⟨[0x28, 0x01, 0x00, 0x01], [1, 0, 1, 1], [], [], noMem, 0, 10, [], [], 0, 9, .panic⟩,
   ⟨[0x28, 0x02, 0x00, 0x01], [1, 0, 1, 1], [], [], noMem, 0, 10, [], [], 2, 9, .ok⟩,
   ⟨[0x01, 0x28, 0xFF], [1, 1, 0], [], [], noMem, 1, 10, [], [], 0, 9, .ok⟩,
   ⟨[0x01, 0x28], [1, 1], [], [], noMem, 1, 10, [], [], 1, 9, .ok⟩,
   ⟨[0x28, 0x04, 0x00, 0x01], [1, 0, 1, 1], [], [], noMem, 0, 10, [], [], 0, 9, .panic⟩,
   ⟨[0xAA, 0x21, 0x04, 0x00, 0x01], [1, 0, 0, 1, 1], [], [(1, 0x7), (2, 0x7)], noMem, 0, 10, [], [], 4, 9, .ok⟩,
   ⟨[0xAA, 0x21, 0x04, 0x00, 0x01], [1, 0, 0, 1, 1], [], [(1, 0x7), (2, 0x100000007)], noMem, 0, 10, [], [], 3, 9, .ok⟩,
   ⟨[0xAB, 0x21, 0x04, 0x00, 0x01], [1, 0, 0, 1, 1], [], [(1, 0x3), (2, 0x0)], noMem, 0, 10, [], [], 4, 9, .ok⟩,
   ⟨[0xAB, 0x21, 0x04, 0x00, 0x01], [1, 0, 0, 1, 1], [], [(1, 0x3), (2, 0x3)], noMem, 0, 10, [], [], 3, 9, .ok⟩,
   ⟨[0xAC, 0x21, 0x04, 0x00, 0x01], [1, 0, 0, 1, 1], [], [(1, 0x1), (2, 0xffffffffffffffff)], noMem, 0, 10, [], [], 4, 9, .ok⟩,
   ⟨[0xAC, 0x21, 0x04, 0x00, 0x01], [1, 0, 0, 1, 1], [], [(1, 0xffffffffffffffff), (2, 0x1)], noMem, 0, 10, [], [], 3, 9, .ok⟩,
   ⟨[0xAD, 0x21, 0x04, 0x00, 0x01], [1, 0, 0, 1, 1], [], [(1, 0xffffffffffffffff), (2, 0x1)], noMem, 0, 10, [], [], 4, 9, .ok⟩,
   ⟨[0xAD, 0x21, 0x04, 0x00, 0x01], [1, 0, 0, 1, 1], [], [(1, 0x1), (2, 0xffffffffffffffff)], noMem, 0, 10, [], [], 3, 9, .ok⟩,
   ⟨[0xAE, 0x21, 0x04, 0x00, 0x01], [1, 0, 0, 1, 1], [], [(1, 0x5), (2, 0x5)], noMem, 0, 10, [], [], 4, 9, .ok⟩,
   ⟨[0xAE, 0x21, 0x04, 0x00, 0x01], [1, 0, 0, 1, 1], [], [(1, 0x1), (2, 0xffffffffffffffff)], noMem, 0, 10, [], [], 3, 9, .ok⟩,
   ⟨[0xAF, 0x21, 0x04, 0x00, 0x01], [1, 0, 0, 1, 1], [], [(1, 0x1), (2, 0xffffffffffffffff)], noMem, 0, 10, [], [], 4, 9, .ok⟩,
   ⟨[0xAF, 0x21, 0x04, 0x00, 0x01], [1, 0, 0, 1, 1], [], [(1, 0xffffffffffffffff), (2, 0x1)], noMem, 0, 10, [], [], 3, 9, .ok⟩,
   ⟨[0xAA, 0x21, 0x01, 0x00, 0x01], [1, 0, 0, 1, 1], [], [(1, 0x7), (2, 0x7)], noMem, 0, 10, [], [], 0, 9, .panic⟩,
   ⟨[0xAA, 0x21, 0x01, 0x00, 0x01], [1, 0, 0, 1, 1], [], [(1, 0x7), (2, 0x8)], noMem, 0, 10, [], [], 3, 9, .ok⟩]

theorem test_control1_vectors : control1Vectors.all Vec.holds = true := by decide +kernel

/-- Section 2.8. -/
def control2Vectors : List Vec :=
  [⟨[0x51, 0x11, 0x05, 0x05, 0x00, 0x01], [1, 0, 0, 0, 1, 1], [], [(1, 0x5)], noMem, 0, 10, [], [], 5, 9, .ok⟩,
   ⟨[0x51, 0x11, 0x05, 0x05, 0x00, 0x01], [1, 0, 0, 0, 1, 1], [], [(1, 0x6)], noMem, 0, 10, [], [], 4, 9, .ok⟩,
   ⟨[0x52, 0x11, 0x05, 0x05, 0x00, 0x01], [1, 0, 0, 0, 1, 1], [], [(1, 0x6)], noMem, 0, 10, [], [], 5, 9, .ok⟩,
   ⟨[0x52, 0x11, 0x05, 0x05, 0x00, 0x01], [1, 0, 0, 0, 1, 1], [], [(1, 0x5)], noMem, 0, 10, [], [], 4, 9, .ok⟩,
   ⟨[0x53, 0x11, 0x05, 0x05, 0x00, 0x01], [1, 0, 0, 0, 1, 1], [], [(1, 0x4)], noMem, 0, 10, [], [], 5, 9, .ok⟩,
   ⟨[0x53, 0x11, 0x05, 0x05, 0x00, 0x01], [1, 0, 0, 0, 1, 1], [], [(1, 0xffffffffffffffff)], noMem, 0, 10, [], [], 4, 9, .ok⟩,
   ⟨[0x54, 0x11, 0x05, 0x05, 0x00, 0x01], [1, 0, 0, 0, 1, 1], [], [(1, 0x5)], noMem, 0, 10, [], [], 5, 9, .ok⟩,
   ⟨[0x54, 0x11, 0x05, 0x05, 0x00, 0x01], [1, 0, 0, 0, 1, 1], [], [(1, 0x6)], noMem, 0, 10, [], [], 4, 9, .ok⟩,
   ⟨[0x55, 0x11, 0x05, 0x05, 0x00, 0x01], [1, 0, 0, 0, 1, 1], [], [(1, 0xffffffffffffffff)], noMem, 0, 10, [], [], 5, 9, .ok⟩,
   ⟨[0x55, 0x11, 0x05, 0x05, 0x00, 0x01], [1, 0, 0, 0, 1, 1], [], [(1, 0x4)], noMem, 0, 10, [], [], 4, 9, .ok⟩,
   ⟨[0x56, 0x11, 0x05, 0x05, 0x00, 0x01], [1, 0, 0, 0, 1, 1], [], [(1, 0x6)], noMem, 0, 10, [], [], 5, 9, .ok⟩,
   ⟨[0x56, 0x11, 0x05, 0x05, 0x00, 0x01], [1, 0, 0, 0, 1, 1], [], [(1, 0x5)], noMem, 0, 10, [], [], 4, 9, .ok⟩,
   ⟨[0x57, 0x11, 0x05, 0x05, 0x00, 0x01], [1, 0, 0, 0, 1, 1], [], [(1, 0xffffffffffffffff)], noMem, 0, 10, [], [], 5, 9, .ok⟩,
   ⟨[0x57, 0x11, 0x05, 0x05, 0x00, 0x01], [1, 0, 0, 0, 1, 1], [], [(1, 0x5)], noMem, 0, 10, [], [], 4, 9, .ok⟩,
   ⟨[0x58, 0x11, 0x05, 0x05, 0x00, 0x01], [1, 0, 0, 0, 1, 1], [], [(1, 0x5)], noMem, 0, 10, [], [], 5, 9, .ok⟩,
   ⟨[0x58, 0x11, 0x05, 0x05, 0x00, 0x01], [1, 0, 0, 0, 1, 1], [], [(1, 0x6)], noMem, 0, 10, [], [], 4, 9, .ok⟩,
   ⟨[0x59, 0x11, 0x05, 0x05, 0x00, 0x01], [1, 0, 0, 0, 1, 1], [], [(1, 0x5)], noMem, 0, 10, [], [], 5, 9, .ok⟩,
   ⟨[0x59, 0x11, 0x05, 0x05, 0x00, 0x01], [1, 0, 0, 0, 1, 1], [], [(1, 0xffffffffffffffff)], noMem, 0, 10, [], [], 4, 9, .ok⟩,
   ⟨[0x5A, 0x11, 0x05, 0x05, 0x00, 0x01], [1, 0, 0, 0, 1, 1], [], [(1, 0x6)], noMem, 0, 10, [], [], 5, 9, .ok⟩,
   ⟨[0x5A, 0x11, 0x05, 0x05, 0x00, 0x01], [1, 0, 0, 0, 1, 1], [], [(1, 0xffffffffffffffff)], noMem, 0, 10, [], [], 4, 9, .ok⟩]

theorem test_control2_vectors : control2Vectors.all Vec.holds = true := by decide +kernel

/-- Section 2.8. -/
def control3Vectors : List Vec :=
  [⟨[0x53, 0x11, 0xFF, 0x05, 0x00, 0x01], [1, 0, 0, 0, 1, 1], [], [(1, 0x7)], noMem, 0, 10, [], [], 5, 9, .ok⟩,
   ⟨[0x50, 0x10, 0x05, 0x04, 0x01], [1, 0, 0, 0, 1], [], [], noMem, 0, 10, [(0, 0x5)], [], 4, 9, .ok⟩,
   ⟨[0x50, 0x10, 0x05, 0x02, 0x01], [1, 0, 0, 0, 1], [], [], noMem, 0, 10, [(0, 0x5)], [], 0, 9, .panic⟩,
   ⟨[0x32, 0x02, 0x02, 0x00, 0x01], [1, 0, 0, 1, 1], [4], [(2, 0x2)], noMem, 0, 10, [], [], 4, 9, .ok⟩,
   ⟨[0x32, 0x02, 0x02, 0x00, 0x01], [1, 0, 0, 1, 1], [4], [(2, 0x100000002)], noMem, 0, 10, [], [], 4, 9, .ok⟩,
   ⟨[0x32, 0x02, 0x02, 0x00, 0x01], [1, 0, 0, 1, 1], [], [(2, 0x1)], noMem, 0, 10, [], [], 0, 9, .panic⟩,
   ⟨[0x32, 0x02, 0x02, 0x00, 0x01], [1, 0, 0, 1, 1], [], [(2, 0x2)], noMem, 0, 10, [], [], 0, 9, .panic⟩,
   ⟨[0x32, 0x02, 0x02, 0x00, 0x01], [1, 0, 0, 1, 1], [0], [(2, 0xfffffffe)], noMem, 0, 10, [], [], 0, 9, .panic⟩,
   ⟨[0x32, 0x02, 0x02, 0x00, 0x01], [1, 0, 0, 1, 1], [], [(2, 0xfffefffe)], noMem, 0, 10, [], [], 0, 9, .halt⟩,
   ⟨[0x32, 0x02, 0x02, 0x00, 0x01], [1, 0, 0, 1, 1], [2], [(2, 0x0)], noMem, 0, 10, [], [], 0, 9, .panic⟩,
   ⟨[0x32, 0x00], [1, 0], [], [(0, 0xffff0000)], noMem, 0, 10, [], [], 0, 9, .halt⟩,
   ⟨[0xB4, 0x10, 0x01, 0x07, 0x02, 0x00, 0x01], [1, 0, 0, 0, 0, 1, 1], [6], [(1, 0x4)], noMem, 0, 10, [(0, 0x7)], [], 6, 9, .ok⟩,
   ⟨[0xB4, 0x00, 0x01, 0x07, 0x02, 0x00, 0x01], [1, 0, 0, 0, 0, 1, 1], [6], [(0, 0x4)], noMem, 0, 10, [(0, 0x7)], [], 6, 9, .ok⟩,
   ⟨[0xB4, 0x10, 0x01, 0x07, 0x02, 0x00, 0x01], [1, 0, 0, 0, 0, 1, 1], [], [(1, 0xfffefffe)], noMem, 0, 10, [(0, 0x7)], [], 0, 9, .halt⟩,
   ⟨[0xB4, 0x10, 0x01, 0x07, 0x02, 0x00, 0x01], [1, 0, 0, 0, 0, 1, 1], [], [(1, 0x3)], noMem, 0, 10, [(0, 0x7)], [], 0, 9, .panic⟩]

theorem test_control3_vectors : control3Vectors.all Vec.holds = true := by decide +kernel

/-- Section 2.9. -/
def systemVectors : List Vec :=
  [⟨[0x00], [1], [], [], noMem, 0, 10, [], [], 0, 9, .panic⟩,
   ⟨[0x01, 0x00], [1, 1], [], [], noMem, 0, 10, [], [], 1, 9, .ok⟩,
   ⟨[0x0A, 0x0A, 0x00], [1, 0, 1], [], [], noMem, 0, 10, [], [], 0, 9, .host 10⟩,
   ⟨[0x0A, 0x00], [1, 1], [], [], noMem, 0, 10, [], [], 0, 9, .host 0⟩,
   ⟨[0x0A, 0xFF, 0x00], [1, 0, 1], [], [], noMem, 0, 10, [], [], 0, 9, .host 18446744073709551615⟩,
   ⟨[0x65, 0x21], [1, 0], [], [(1, 0x1), (2, 0x2)], noMem, 0, 10, [], [], 0, 9, .panic⟩,
   ⟨[0x02], [1], [], [], noMem, 0, 10, [], [], 0, 9, .panic⟩,
   ⟨[0xFF], [1], [], [], noMem, 0, 10, [], [], 0, 9, .panic⟩]

theorem test_system_vectors : systemVectors.all Vec.holds = true := by decide +kernel

/-- Section 2.10. -/
def decoderVectors : List Vec :=
  [⟨[0x64, 0xD1], [1, 0], [], [(12, 0x77)], loadMem, 0, 10, [(1, 0x77)], [], 2, 9, .ok⟩,
   ⟨[0xC8, 0x10, 0xFF], [1, 0, 0], [], [(0, 0x1), (1, 0x2)], loadMem, 0, 10, [(12, 0x3)], [], 3, 9, .ok⟩,
   ⟨[0xC8, 0x10, 0x12], [1, 0, 0], [], [(0, 0x1), (1, 0x2)], loadMem, 0, 10, [(12, 0x3)], [], 3, 9, .ok⟩,
   ⟨[0x33, 0x03, 0x01, 0x00, 0x00, 0x00, 0xFF], [1, 0, 0, 0, 0, 0, 0], [], [], loadMem, 0, 10, [(3, 0x1)], [], 7, 9, .ok⟩,
   ⟨[0x1E, 0x07, 0x00, 0x00, 0x02, 0x00, 0x5A], [1, 0, 0, 0, 0, 0, 0], [], [], loadMem, 0, 10, [], [(0x20000, 0x5a)], 7, 9, .ok⟩,
   ⟨[0x1E, 0xFB, 0x00, 0x00, 0x02, 0x5A], [1, 0, 0, 0, 0, 0], [], [], loadMem, 0, 10, [], [(0x20000, 0x5a)], 6, 9, .ok⟩,
   ⟨[0x33, 0x03, 0x01, 0x00, 0x00, 0x00, 0x00, 0x00, 0x00, 0x00, 0x00, 0x00, 0x00, 0x00, 0x00, 0x00, 0x00, 0x00, 0x00, 0x00, 0x00, 0x00, 0x00, 0x00, 0x00, 0x00, 0x00, 0x00, 0x00, 0x00], [1, 0, 0, 0, 0, 0, 0, 0, 0, 0, 0, 0, 0, 0, 0, 0, 0, 0, 0, 0, 0, 0, 0, 0, 0, 0, 0, 0, 0, 0], [], [], loadMem, 0, 10, [(3, 0x1)], [], 25, 9, .ok⟩,
   ⟨[0x33, 0x03, 0x01, 0x00, 0x00, 0x00, 0x00, 0x00, 0x00, 0x00, 0x00, 0x00, 0x00, 0x00, 0x00, 0x00, 0x00, 0x00, 0x00, 0x00, 0x00, 0x00, 0x00, 0x00, 0x00, 0x00, 0x00, 0x00, 0x00, 0x00], [1, 0, 0, 0, 0, 0, 0, 0, 0, 0, 0, 0, 0, 0, 0, 0, 0, 0, 0, 0, 0, 0, 0, 0, 0, 0, 0, 0, 0, 0], [], [], loadMem, 25, 10, [], [], 25, 9, .panic⟩,
   ⟨[0x14, 0x05, 0x88, 0x77], [1, 0, 0, 0], [], [], loadMem, 0, 10, [(5, 0x7788)], [], 4, 9, .ok⟩,
   ⟨[0xBE, 0x10, 0x02], [1, 0, 1], [], [(0, 0x1), (1, 0x2)], loadMem, 0, 10, [(2, 0x3)], [], 2, 9, .ok⟩,
   ⟨[0x33, 0x01, 0x05], [1, 0, 0], [], [], loadMem, 1, 10, [], [], 3, 9, .ok⟩,
   ⟨[0x51, 0x71, 0x05, 0x00, 0x00, 0x00, 0x08, 0x00, 0x01], [1, 0, 0, 0, 0, 0, 0, 1, 1], [], [(1, 0x5)], loadMem, 0, 10, [], [], 8, 9, .ok⟩]

theorem test_decoder_vectors : decoderVectors.all Vec.holds = true := by decide +kernel

/-- Section 2.11. -/
def gasVectors : List Vec :=
  [⟨[0x33, 0x01, 0x05], [1, 0, 0], [], [], noMem, 0, 1, [(1, 0x5)], [], 3, 0, .ok⟩,
   ⟨[0x33, 0x01, 0x05], [1, 0, 0], [], [], noMem, 0, 0, [], [], 0, 0, .oog⟩,
   ⟨[0x33, 0x01, 0x05], [1, 0, 0], [], [], noMem, 0, -3, [], [], 0, -3, .oog⟩,
   ⟨[0x01], [1], [], [], noMem, 1, 5, [], [], 1, 4, .fault 0x1⟩,
   ⟨[0x01], [1], [], [], noMem, 1, 0, [], [], 1, 0, .oog⟩,
   ⟨[0x02], [1], [], [], noMem, 0, 0, [], [], 0, 0, .oog⟩]

theorem test_gas_vectors : gasVectors.all Vec.holds = true := by decide +kernel

/-! ### Instruction length, basic blocks, decoder corners -/

/-- TRAP, FALLTHROUGH, ECALLI 7, JUMP -4, then the unassigned opcode 101. -/
def demoImage : Image :=
  { code := [0x00, 0x01, 0x0A, 0x07, 0x28, 0xFC, 0x65], mask := [true, true, true, false, true, false, true]
    jumpTable := [0, 1, 4] }

theorem test_block_map : blockMap demoImage = [true, true, true, false, false, false, true] := by decide

theorem test_skip_is_capped : skip (true :: List.replicate 30 false) 0 = 24 ∧ skip [true, false] 0 = 1 := by decide

theorem test_register_clamp : loReg 0xDC = 12 ∧ hiReg 0xDC = 12 ∧ loReg 0x1D = 12 ∧ hiReg 0x1D = 1 := by decide

theorem test_unassigned_opcodes :
    (List.range 256).all (fun op =>
      (decode [BitVec.ofNat 8 op] 0).toOption.isSome == assignedOpcodes.contains op) = true := by decide +kernel

theorem test_table_word : decodeTableWord 24 0x0210BE = some (.add32 2 0 1) := by decide +kernel

/-- The table word of LOAD_IMM r3 runs as the first instruction after reset: 25 bytes, the operand zeros. -/
theorem test_fetch_word :
    (match step (State.reset.withFetchWord 16 0x0333) with
      | .next t => t.pc == 25 && t.status == .ok && t.gas == 0 && t.regs == State.reset.regs
      | _ => false) = true := by decide +kernel

/-! ### Memory (V2 to V5), gas (V8), registers (V7) -/

theorem test_v2_store_then_load :
    ((loadMem.storeFrom 0x20FFD [0xAA, 0xBB, 0xCC]).toOption.bind fun m => (m.loadInto 0x20FFD 3).toOption) =
      some [0xAA, 0xBB, 0xCC] := by decide +kernel

theorem test_v3_zero_length :
    noMem.check 0 0 true = .ok () ∧ noMem.check 0xFFFFFFFF 0 false = .ok () ∧
      noMem.storeFrom (2 ^ 32 + 5) [] = .ok noMem := ⟨rfl, rfl, rfl⟩

theorem test_v4_out_of_bounds :
    (noMem.check 0xFFFFFFFE 3 true).toBool = false ∧
      noMem.check 0xFFFFFFFE 3 true = .error (.outOfBounds 0xFFFFFFFE 3) ∧
      noMem.check 0xFFFFFFFE 2 true = .error (.pageFault 0xFFFFF true) := ⟨rfl, rfl, rfl⟩

theorem test_v5_page_faults :
    noMem.check 0x10 1 true = .error (.pageFault 0 true) ∧ storeMem.check 0x22000 1 true = .error (.pageFault 34 true) ∧
      storeMem.check 0x22000 1 false = .ok () ∧ storeMem.check 0x20FFE 4 true = .error (.pageFault 33 true) :=
  ⟨rfl, rfl, rfl, rfl⟩

/-- A state that runs from a demo program: gas 10, the memory of section 2.7. -/
def demo : State :=
  { State.reset with image := demoImage, blocks := blockMap demoImage, gas := 10, mem := storeMem }

/-- Suspended at the ECALLI of the demo program. -/
def demoHost : State := { demo with pc := 2, status := .host 7, resumePc := 4 }

/-- The registers of V7. -/
def v7Regs : Vector Word 13 := ((Vector.replicate 13 0).set 0 0x0102030405060708).set 12 0xFFFFFFFFFFFFFFFE

theorem test_v7_snapshot :
    encodeRegs v7Regs = [8, 7, 6, 5, 4, 3, 2, 1] ++ List.replicate 88 0 ++ [0xFE] ++ List.replicate 7 0xFF ∧
      decodeRegs (encodeRegs v7Regs) = v7Regs := by decide +kernel

theorem test_v8_no_partial_charge :
    (charge 2 { demo with gas := 1 }).status = .oog ∧ (charge 2 { demo with gas := 1 }).gas = 1 ∧
      (charge 1 { demo with gas := 1 }).status = .ok := by decide +kernel

/-! ### Loading: builder, SPI (R399), the default container -/

/-- The blob of 70_reset_and_hazards.md R399. -/
def r399Blob : List Byte :=
  [3, 0, 0, 2, 0, 0, 1, 0, 0, 0x10, 0, 1, 2, 3, 9, 8, 5, 0, 0, 0, 0xC0, 0xC1, 0xC2, 0xC3, 0xC4]

/-- The memory R399 gives. -/
def r399Memory : Memory :=
  { pages := [(0x10, .readable), (0x30, .writable), (0x31, .writable), (0xFEFDF, .writable), (0xFEFF0, .readable)]
    cells := [(0x10000, 1), (0x10001, 2), (0x10002, 3), (0x30000, 9), (0x30001, 8), (0xFEFF0000, 0xAA),
      (0xFEFF0001, 0xBB)]
    heapStart := 0x30000, heapEnd := 0xFEFDF000, sbrkIndex := 0x32000 }

theorem test_r399_memory :
    ((spi r399Blob [0xAA, 0xBB]).toOption.bind fun p => p.memory.toOption) = some r399Memory := by decide +kernel

theorem test_r399_code_and_registers :
    ((spi r399Blob [0xAA, 0xBB]).toOption.map fun p => (p.code, p.registers.toList)) =
      some ([0xC0, 0xC1, 0xC2, 0xC3, 0xC4],
        [0xFFFF0000, 0xFEFE0000, 0, 0, 0, 0, 0, 0xFEFF0000, 2, 0, 0, 0, 0]) := by decide +kernel

theorem test_spi_refuses_bytes_left : (spi (r399Blob ++ [0]) []).toBool = false := by decide +kernel

theorem test_builder_overlap :
    (((({} : Builder).setReadablePages 0x1000 0x3000 [5]).toOption.map fun b =>
      (b.setWriteablePages 0x2000 0x4000 []).toBool)) = some false := by decide +kernel

/-- `E(2) ++ E_1(1) ++ E(3) ++ J ++ c ++ m` of G14. -/
theorem test_default_container :
    defaultDeblob [2, 1, 3, 0, 2, 0xBE, 0x10, 0x02, 0x01] =
      some { code := [0xBE, 0x10, 0x02], mask := [true, false, false], jumpTable := [0, 2] } ∧
      defaultDeblob [2, 1, 3, 0, 2, 0xBE, 0x10, 0x02, 0x01, 0] = none := by decide +kernel

/-- A number in the two-byte form of `E`, 128 + 5 written `80 | 0, 85`. -/
theorem test_natural_encoding :
    takeNat [0x80, 0x85] = some (0x85, []) ∧ takeNat [0x7F] = some (127, []) ∧
      takeNat [0xFF, 1, 0, 0, 0, 0, 0, 0, 0x80] = some (0x8000000000000001, []) := by decide +kernel

/-! ### The statements' hypotheses are met: one case each, at the ends of their ranges -/

/-- The last page Writable. -/
def topMem : Memory := { pages := [(0xFFFFF, .writable)] }

theorem witness_mayRead :
    storeMem.mayRead 0x20FFF 1 ∧ storeMem.mayRead 0x22FF8 8 ∧ topMem.mayRead 0xFFFFFFF8 8 ∧
      ¬storeMem.mayRead 0x20FFF 2 ∧ ¬storeMem.mayRead 0x22FF9 8 ∧ ¬topMem.mayRead 0xFFFFFFF9 8 := by
  simp only [Memory.mayRead]; decide +kernel

theorem witness_mayWrite :
    storeMem.wf ∧ topMem.wf ∧ storeMem.mayWrite 0x20FFF 1 ∧ storeMem.mayWrite 0x20FF8 8 ∧
      topMem.mayWrite 0xFFFFFFFC 4 ∧ ¬storeMem.mayWrite 0x20FFF 2 ∧ ¬storeMem.mayWrite 0x22000 1 ∧
      ¬topMem.mayWrite 0xFFFFFFFD 4 := by
  simp only [Memory.mayWrite]; decide +kernel

theorem witness_DirectLoadResults :
    demo.mem.mayRead (directAddr 0x22000) 1 ∧ demo.mem.mayRead (directAddr 0xFFFFFFFF00022FF8) 8 ∧
      ¬demo.mem.mayRead (directAddr 0xFFFFFFFFFFFFFFFF) 2 := by
  simp only [Memory.mayRead]; decide +kernel

theorem witness_IndirectLoadResults :
    demo.mem.mayRead (indirectAddr 0xFFFFFFFFFFFFFFFF 0x20001) 8 ∧ ¬demo.mem.mayRead (indirectAddr 0x20000 (-1)) 1 := by
  simp only [Memory.mayRead]; decide +kernel

theorem witness_RegisterStoreResults :
    demo.mem.wf ∧ demo.mem.mayWrite (directAddr 0x20000) 8 ∧ demo.mem.mayWrite (indirectAddr 0x20000 0xFFF) 1 ∧
      ¬demo.mem.mayWrite (directAddr 0x22000) 1 ∧ ¬demo.mem.mayWrite (indirectAddr 0x20000 0xFFF) 2 := by
  simp only [Memory.mayWrite]; decide +kernel

theorem witness_ImmediateStoreResults :
    topMem.wf ∧ topMem.mayWrite (directAddr 0xFFFFFFFFFFFFFFFF) 1 ∧ topMem.mayWrite (indirectAddr (-8) 0) 8 ∧
      ¬topMem.mayWrite (directAddr 0xFFFFFFFFFFFFFFFF) 2 ∧ ¬topMem.mayWrite (indirectAddr (-8) 8) 1 := by
  simp only [Memory.mayWrite]; decide +kernel

/-- Legal targets 0 and the last offset; illegal ones outside the code, off a block start and inside an operand. -/
theorem witness_mayLand :
    demo.image.wf = true ∧ demo.mayLand 0 ∧ demo.mayLand 6 ∧ ¬demo.mayLand (-1) ∧ ¬demo.mayLand 7 ∧
      ¬demo.mayLand 4 ∧ ¬demo.mayLand 3 := by
  simp only [State.mayLand]; decide +kernel

theorem witness_JumpAndRegisterBranchResults :
    demo.image.wf = true ∧ demo.uns 0 = demo.uns 1 ∧ ¬demo.uns 0 < demo.uns 1 ∧
      ({ demo with regs := demo.regs.set 1 0xFFFFFFFFFFFFFFFF } : State).uns 0 <
        ({ demo with regs := demo.regs.set 1 0xFFFFFFFFFFFFFFFF } : State).uns 1 ∧
      ({ demo with regs := demo.regs.set 1 0xFFFFFFFFFFFFFFFF } : State).sgn 1 <
        ({ demo with regs := demo.regs.set 1 0xFFFFFFFFFFFFFFFF } : State).sgn 0 := by decide +kernel

theorem witness_ImmediateBranchResults :
    demo.image.wf = true ∧ demo.uns 0 = ((0 : Word).toNat : Int) ∧ demo.uns 0 < ((1 : Word).toNat : Int) ∧
      ¬demo.sgn 0 < sView 64 (0xFFFFFFFFFFFFFFFF : Word).toNat := by decide +kernel

/-- The four ends of a dynamic jump; 4 is in the table but no block start, 2 a block start but not in the table. -/
theorem witness_CallAndDynamicJumpResults :
    demo.image.wf = true ∧ demo.params.exitAddr.toNat ≠ 0 ∧ demo.mayJump 1 ∧ demo.mayLand 1 ∧ ¬demo.mayJump 2 ∧
      ¬demo.mayJump 4 ∧ ¬demo.mayJump 7 := by
  simp only [State.mayJump, State.mayLand]; decide +kernel

theorem witness_EncodeThenDecode :
    (Instr.loadImmJumpInd 12 0 0xFFFFFFFF80000000 0x7FFFFFFF).wf = true ∧
      (Instr.storeImmIndU64 12 0 0xFFFFFFFF80000000).wf = true ∧ (Instr.branchGeS 12 12 0x7FFFFFFF).wf = true := by
  decide

theorem witness_EncodedInstructionInImage :
    (Instr.ecalli 7).wf = true ∧ ([true, true] : List Bool).length = ([0, 1] : List Byte).length ∧
      ([] : List Bool).head?.getD true = true ∧ ([true, false] : List Bool).head?.getD true = true := by decide

theorem witness_InstructionLength :
    demo.image.wf = true ∧ demo.pc.toNat < demo.image.code.length ∧ skip demo.image.mask 2 < 24 ∧
      (∃ t : State, t.image.wf = true ∧ t.pc.toNat < t.image.code.length ∧ skip t.image.mask t.pc.toNat = 24) :=
  ⟨by decide, by decide, by decide,
    { demo with image := { code := List.replicate 30 0, mask := true :: List.replicate 29 false } },
    by decide, by decide, by decide⟩

theorem witness_AssignedOpcodesDecode :
    (0 : Byte).toNat ∈ assignedOpcodes ∧ (230 : Byte).toNat ∈ assignedOpcodes ∧ (231 : Byte).toNat ∉ assignedOpcodes ∧
      (255 : Byte).toNat ∉ assignedOpcodes ∧ (101 : Byte).toNat ∉ assignedOpcodes := by decide

theorem witness_ImmediateValue :
    8 ≤ 8 ∧ immAt [1, 0, 0, 0, 0, 0, 0, 0x80] 0 8 = 0x8000000000000001 ∧ immAt [0x80] 0 1 = 0xFFFFFFFFFFFFFF80 ∧
      immAt [0x80] 0 2 = 0x80 ∧ immAt [0x80] 0 0 = 0 ∧ offAt [0x80] 0 1 = -128 := by decide

theorem witness_AccessCheckOutcome :
    topMem.check 0xFFFFFFFF 1 true = .ok () ∧ topMem.check 0xFFFFFFFF 2 true = .error (.outOfBounds 0xFFFFFFFF 2) ∧
      topMem.check 0xFFFFEFFF 1 false = .error (.pageFault 0xFFFFE false) := ⟨rfl, rfl, rfl⟩

theorem witness_DecodedIsWellFormed : (decode [0x28, 0xFC] 1).toOption = some (.jump (-4)) := by decide

theorem witness_OperandLayouts :
    demoImage.code[4]? = some 0x28 ∧ ∃ f, opcodeTable.lookup (0x28 : Byte).toNat = some (.oneOffset f) :=
  ⟨rfl, _, rfl⟩

theorem witness_BasicBlockMap :
    demoImage.wf = true ∧ (blockMap demoImage).getD 6 false = true ∧ (blockMap demoImage).getD 4 false = false ∧
      (blockMap demoImage).getD 7 false = false := by decide

theorem witness_AccessOperations :
    storeMem.wf ∧ storeMem.check 0x22FFE 2 false = .ok () ∧
      storeMem.check 0x22FFE 3 false = .error (.pageFault 35 false) ∧
      storeMem.check 0x20FFE ([1, 2] : List Byte).length true = .ok () ∧
      storeMem.check 0x20FFE ([1, 2, 3] : List Byte).length true = .error (.pageFault 33 true) :=
  ⟨by decide +kernel, rfl, rfl, rfl, rfl⟩

theorem witness_StoreThenLoadReturnsBytes :
    topMem.wf ∧ topMem.storeFrom 0xFFFFFFFE [1, 2] =
      .ok { topMem with cells := [(0xFFFFFFFE, 1), (0xFFFFFFFF, 2)] } := ⟨by decide +kernel, rfl⟩

theorem witness_RegisterSnapshot :
    demo.life = .initialized ∧ (encodeRegs v7Regs).length = 104 ∧ ([] : List Byte).length ≠ 104 ∧
      (0 :: encodeRegs v7Regs).length ≠ 104 := by decide +kernel

theorem witness_RegisterAccessors : demo.life = .initialized ∧ 12 < 13 := by decide

/-- Gas exactly the cost; the bytes at `pc` decode. -/
theorem witness_StepRunsDecodedInstruction :
    let s := { demo with pc := 4, gas := 1 }
    s.life = .initialized ∧ s.status = .ok ∧ decodeAt s.image s.pc.toNat = .ok (.jump (-4)) ∧
      (s.params.gasCost (Instr.jump (-4)).opcode : Int) ≤ s.gas.toInt := ⟨rfl, rfl, rfl, by decide⟩

theorem witness_ResumeAfterHostCall :
    demoHost.life = .initialized ∧ demoHost.status = .host 7 ∧
      decodeAt demoHost.image demoHost.resumePc.toNat = .ok (.jump (-4)) ∧
      (demoHost.params.gasCost (Instr.jump (-4)).opcode : Int) ≤ demoHost.gas.toInt := ⟨rfl, rfl, rfl, by decide⟩

theorem witness_TerminalStatusIsSticky :
    [Status.halt, .panic, .oog, .fault 7].all (fun st => (demo.stopped st).status.terminal) = true ∧
      isNext (setU64 12 5 (demo.stopped .oog)) = true ∧
      isNext (setAllEncoded (encodeRegs v7Regs) (demo.stopped .panic)) = true ∧
      isNext (hostStoreFrom 0x20000 [1] (demo.stopped .halt)) = true := by decide +kernel

theorem witness_GasCharge :
    demo.gas.toInt - (11 : Nat) < 0 ∧ 0 ≤ demo.gas.toInt - (10 : Nat) ∧
      ({ demo with gas := 0xFFFFFFFFFFFFFFFF } : State).gas.toInt < 0 ∧ demo.life = .initialized ∧ demo.status = .ok := by
  decide +kernel

theorem witness_FetchPastEndFaults :
    let s := { demo with pc := 7, gas := 1 }
    s.life = .initialized ∧ s.status = .ok ∧ s.image.code.length ≤ s.pc.toNat ∧
      (s.params.gasCost 0 : Int) ≤ s.gas.toInt := by decide +kernel

/-- Opcode 101, marked; and an unassigned operand byte, not marked. -/
theorem witness_UnassignedOpcodePanics :
    ({ demo with pc := 6 } : State).image.code[6]? = some 101 ∧ (101 : Byte).toNat ∉ assignedOpcodes ∧
      demo.image.code[3]? = some 7 ∧ (7 : Byte).toNat ∉ assignedOpcodes ∧ demo.life = .initialized ∧
      demo.status = .ok ∧ (demo.params.gasCost 0 : Int) ≤ demo.gas.toInt := by decide +kernel

/-- At an instruction, at an unassigned opcode and past the end. -/
theorem witness_OutOfGasWinsOverEverything :
    [0, 6, 7].all (fun pc => decide (({ demo with gas := 0 } : State).gas.toInt <
      (({ demo with gas := 0 } : State).costAt pc : Int))) = true ∧ demo.life = .initialized ∧ demo.status = .ok := by
  decide +kernel

theorem witness_StepIsTotal :
    demo.life = .initialized ∧ (storeMem.storeFrom 0x20FFF [1]).toBool = true ∧
      storeMem.storeFrom 0x20FFF [1, 2] = .error (.pageFault 33 true) ∧
      storeMem.storeFrom 0xFFFFFFFF [1, 2] = .error (.outOfBounds 0xFFFFFFFF 2) ∧
      (newInstance {} demo).life = .uninitialized := ⟨rfl, rfl, rfl, rfl, rfl⟩

theorem test_new_instance_is_refused : step (newInstance {} demo) = .refused .uninitialized := rfl

/-- The invariant, and a step from it to each kind of status. -/
theorem witness_StepKeepsInvariant :
    demo.Inv ∧ demoHost.Inv ∧ step demo = .next { demo with gas := 9, status := .panic } ∧
      step { demo with pc := 1 } = .next { demo with pc := 2, gas := 9 } ∧
      step { demo with pc := 2 } = .next { demoHost with gas := 9 } ∧
      step { demo with pc := 7 } = .next { demo with pc := 7, gas := 9, status := .fault 7 } :=
  ⟨⟨by decide +kernel, by decide +kernel, by decide, trivial⟩, ⟨by decide +kernel, by decide +kernel, by decide, rfl⟩,
    rfl, rfl, rfl, rfl⟩

theorem witness_StepKeepsProgramAndPageStates : step demoHost = .next { demo with gas := 9, resumePc := 4 } := rfl

/-- A store by the demo's memory: STORE_IMM_U8 0x20000, 0x5A changes one byte. -/
def demoStore : State :=
  let p : Image :=
    { code := [0x1E, 0x03, 0x00, 0x00, 0x02, 0x5A], mask := [true, false, false, false, false, false] }
  { demo with image := p, blocks := blockMap p }

theorem witness_OnlyWritableBytesChange :
    demoStore.mem.wf ∧ step demoStore = .next { demoStore with mem := storeMem.setByte 0x20000 0x5A, pc := 6, gas := 9 } ∧
      (storeMem.setByte 0x20000 0x5A).byte 0x20000 ≠ storeMem.byte 0x20000 := ⟨by decide +kernel, rfl, by decide⟩

/-- LOAD_IMM_JUMP r3, 9, -1: the link stays written when the target is illegal. -/
def demoCall : State :=
  let p : Image := { code := [0x50, 0x13, 0x09, 0xFF], mask := [true, false, false, false] }
  { demo with image := p, blocks := blockMap p }

theorem witness_ExceptionsArePrecise :
    demoCall.status.terminal = false ∧
      step demoCall = .next { demoCall with regs := demoCall.regs.set 3 9, gas := 9, status := .panic } := ⟨rfl, rfl⟩

/-- JUMP_IND r0 with register 0 at EXIT_ADDR halts. -/
def demoExit : State :=
  let p : Image := { code := [0x32, 0x00], mask := [true, false] }
  { demo with image := p, blocks := blockMap p, regs := demo.regs.set 0 0xFFFF0000 }

theorem witness_ExceptionsArePrecise_halt :
    demoExit.status.terminal = false ∧ step demoExit = .next { demoExit with gas := 9, status := .halt } := ⟨rfl, rfl⟩

/-- The JUMP of the demo program goes to offset 0; FALLTHROUGH falls to offset 2. -/
theorem witness_ControlFlowIntegrity :
    demo.ImageInv ∧ step { demo with pc := 4 } = .next { demo with gas := 9 } ∧
      step { demo with pc := 1 } = .next { demo with pc := 2, gas := 9 } := ⟨by decide +kernel, rfl, rfl⟩

/-- The charge met exactly, not met, and a terminal status. -/
theorem witness_GasAccounting :
    step { demo with pc := 1, gas := 1 } = .next { demo with pc := 2, gas := 0 } ∧
      step { demo with pc := 1, gas := 0 } = .next { demo with pc := 1, gas := 0, status := .oog } ∧
      step (demo.stopped .halt) = .next (demo.stopped .halt) := ⟨rfl, rfl, rfl⟩

theorem witness_RunTerminates :
    demo.life = .initialized ∧ (∀ op, 1 ≤ demo.params.gasCost op) ∧
      runProgram 1 demo = some (.next { demo with gas := 9, status := .panic }) :=
  ⟨rfl, fun _ => Nat.le_refl 1, rfl⟩

/-- Outside HOST with another latch; inside HOST with its own. -/
theorem witness_HeapValuesAndLatchAreUnseen :
    (demo.status.isHost = true → (5 : CodeAddr) = demo.resumePc) ∧
      (demoHost.status.isHost = true → (4 : CodeAddr) = demoHost.resumePc) ∧ demoHost.status.isHost = true := by decide

theorem witness_JumpTableIsASet : (∀ a, a ∈ [4, 1, 0, 1] ↔ a ∈ demo.image.jumpTable) ∧
    step demoExit = .next { demoExit with gas := 9, status := .halt } :=
  ⟨by intro a; simp [demo, demoImage]; omega, rfl⟩

/-- A new instance and a destroyed one, each then reset; a container that parses to a loadable image, one that does not parse, one whose image is refused. -/
theorem witness_ResetEffect :
    defaultDeblob [0, 0, 2, 0x00, 0x01, 0x03] = some { code := [0, 1], mask := [true, true] } ∧
      ({ code := [0, 1], mask := [true, true] } : Image).wf = true ∧ defaultDeblob [] = none ∧
      (some ({ code := [0] } : Image)).map Image.wf = some false ∧
      isNext (hostReset demoImage 0 10 none none {} (newInstance {} demo)) = true ∧
      isNext (hostReset demoImage 0 10 none none {} (destroy demoHost demo)) = true := by decide +kernel

theorem witness_HostOperationsKeepInvariant :
    0 < demo.params.jumpAlign ∧ (∀ m, some storeMem = some m → m.wf) ∧
      isNext (hostReset demoImage 0 10 none (some storeMem) {} demo) = true ∧ demoHost.Inv ∧
      isNext (chargeGas 3 demoHost) = true :=
  ⟨by decide, by rintro m ⟨⟩; decide +kernel, by decide +kernel,
    ⟨by decide +kernel, by decide +kernel, by decide, rfl⟩, by decide +kernel⟩

theorem witness_HostCallCharge :
    demoHost.life = .initialized ∧ demoHost.status = .host 7 ∧ 0 ≤ demoHost.gas.toInt - (10 : Nat) ∧
      demoHost.gas.toInt - (11 : Nat) < 0 := by decide +kernel

/-- A range that fits and is free, one that is assigned, one that is not page-aligned, the last page. -/
theorem witness_BuilderPageCalls :
    ({ mem := storeMem } : Builder).mem.wf ∧
      (({ mem := storeMem } : Builder).setPages .readable 0x23000 0x25000 [1]).toBool = true ∧
      (({ mem := storeMem } : Builder).setPages .readable 0x22000 0x24000 []).toBool = false ∧
      (({ mem := storeMem } : Builder).setPages .readable 0x23000 0x23800 []).toBool = false ∧
      (({ mem := storeMem } : Builder).setPages .writable 0xFFFFF000 0x100000000 [1]).toBool = true ∧
      (({ mem := storeMem } : Builder).finalize 0x23000 0x24000).toBool = true ∧
      (({ mem := storeMem } : Builder).finalize 0x22000 0x24000).toBool = false := by decide +kernel

/-- Heap ranges that are unaligned, empty on an assigned page, and reversed; an unaligned one on an assigned page. -/
theorem witness_BuilderPageCalls_finalize :
    (({ mem := storeMem } : Builder).finalize 0x23001 0x23FFF).toBool = true ∧
      (({ mem := storeMem } : Builder).finalize 0x22800 0x22800).toBool = true ∧
      (({ mem := storeMem } : Builder).finalize 0x24000 0x22000).toBool = true ∧
      (({ mem := storeMem } : Builder).finalize 0x22FFF 0x23001).toBool = false := by decide +kernel

/-- A range across the top: page 0 follows the last page. -/
theorem witness_RangePagesWrap :
    (⟨0xFFFFF800, 0x1000⟩ : MemoryRange).length ≤ 2 ^ 32 ∧
      (⟨0xFFFFF800, 0x1000⟩ : MemoryRange).pages = [0xFFFFF, 0] ∧
      (⟨0xFFFFF800, 0x1000⟩ : MemoryRange).stop = 0x800 ∧ (⟨0xFFFFF800, 0x1000⟩ : MemoryRange).wraps = true ∧
      (⟨0x800, 0⟩ : MemoryRange).pages = [] ∧ (⟨0x800, 0⟩ : MemoryRange).stop = 0x800 ∧
      (⟨0x800, 2 ^ 32⟩ : MemoryRange).length ≤ 2 ^ 32 ∧ (⟨0x800, 2 ^ 32⟩ : MemoryRange).stop = 0x800 := by
  decide +kernel

theorem witness_SpiMemoryLayout : (spi r399Blob [0xAA, 0xBB]).toBool = true ∧ r399Memory.byte 0x10002 = 3 ∧ r399Memory.byte 0x10003 = 0 ∧
      r399Memory.byte 0x30002 = 0 ∧ r399Memory.byte 0x31FFF = 0 ∧ r399Memory.byte 0xFEFDF000 = 0 ∧
      r399Memory.byte 0xFEFF0002 = 0 := by decide +kernel

/-- The fields of R399's blob; a blob one byte short, one with a byte left over, none at all, arguments too long. -/
theorem witness_SpiBlobAcceptance :
    let field := fun i n => ∑ j ∈ Finset.range n, (r399Blob[i + j]?.getD 0).toNat * 2 ^ (8 * j)
    field 0 3 = 3 ∧ field 3 3 = 2 ∧ field 6 2 = 1 ∧ field 8 3 = 4096 ∧ field (11 + 3 + 2) 4 = 5 ∧
      r399Blob.length = 15 + 3 + 2 + 5 ∧ (spi r399Blob [0xAA, 0xBB]).toBool = true ∧
      (spi r399Blob.dropLast []).toBool = false ∧ (spi (r399Blob ++ [0]) []).toBool = false ∧
      (spi [] []).toBool = false := by decide +kernel

theorem witness_SpiBlobAcceptance_args (args : List Byte) (h : args.length = 2 ^ 24 + 1) (b : SpiBlob) :
    b.fits args = false := by simp [SpiBlob.fits, h]

/-- With nothing in it, the blob of V9 gives no segment at all. -/
theorem witness_SpiRegisters :
    ((spi (List.replicate 15 0) []).toOption.map fun p =>
      (p.readableSegments, p.writeableSegments, p.registers[8])) = some ([], [], 0) := by decide +kernel

end Sys2Proof.Tests
end

section
/-! PROOFS. Little-endian byte strings: the bytes of a value, the value of bytes, and that the two are inverse
(10_state.md R22, 20_memory.md R73, R74). -/

namespace Sys2Proof

/-! ### The bytes of a value -/

theorem leBytes_getElem? {n j : Nat} (h : j < n) (v : Word) :
    (leBytes n v)[j]? = some ((v >>> (8 * j)).setWidth 8) := by
  simp [leBytes, h]

theorem toNat_ushiftRight_byte (v : Word) (j : Nat) :
    ((v >>> (8 * j)).setWidth 8).toNat = v.toNat / 2 ^ (8 * j) % 256 := by
  simp [Nat.shiftRight_eq_div_pow]

/-- The byte `j` of `leBytes` in the integer form of the statements. -/
theorem leBytes_byte {n j : Nat} (h : j < n) (v : Word) :
    ∃ b, (leBytes n v)[j]? = some b ∧ (b.toNat : Int) = (v.toNat : Int) / 2 ^ (8 * j) % 256 :=
  ⟨_, leBytes_getElem? h v, by rw [toNat_ushiftRight_byte]; push_cast; rfl⟩

/-! ### The value of bytes -/

theorem leValue_lt (bs : List Byte) : leValue bs < 256 ^ bs.length := by
  induction bs with
  | nil => simp [leValue]
  | cons b bs ih =>
    have hb : b.toNat < 256 := b.isLt
    rw [leValue, List.length_cons, pow_succ]
    omega

/-- `leValue` as the sum over byte positions that the statements write. -/
theorem leValue_eq_sum (bs : List Byte) :
    leValue bs = ∑ j ∈ Finset.range bs.length, (bs[j]?.getD 0).toNat * 2 ^ (8 * j) := by
  induction bs with
  | nil => rfl
  | cons b bs ih =>
    rw [leValue, ih, List.length_cons, Finset.sum_range_succ', Finset.mul_sum, add_comm]
    congr 1
    · refine Finset.sum_congr rfl fun j _ => ?_
      rw [List.getElem?_cons_succ, show 8 * (j + 1) = 8 * j + 8 by ring, pow_add]
      ring
    · simp

/-- Dividing by `2 ^ (8 * j)` drops the bytes below `j`. -/
theorem leValue_byte (bs : List Byte) (j : Nat) :
    leValue bs / 2 ^ (8 * j) % 256 = (bs[j]?.getD 0).toNat := by
  induction bs generalizing j with
  | nil => simp [leValue]
  | cons b bs ih =>
    have hb : b.toNat < 256 := b.isLt
    cases j with
    | zero => simp [leValue]; omega
    | succ j =>
      have hdrop : leValue (b :: bs) / 256 = leValue bs := by rw [leValue]; omega
      rw [show 2 ^ (8 * (j + 1)) = 256 * 2 ^ (8 * j) by rw [mul_add, pow_add]; ring, ← Nat.div_div_eq_div_mul,
        hdrop, ih, List.getElem?_cons_succ]

/-! ### The two are inverse -/

/-- At most 8 bytes have a value below 2^64, so making it a word loses nothing. -/
theorem toNat_ofNat_leValue {bs : List Byte} (h : bs.length ≤ 8) :
    (BitVec.ofNat 64 (leValue bs)).toNat = leValue bs := by
  have hlt : leValue bs < 2 ^ 64 := (leValue_lt bs).trans_le (Nat.pow_le_pow_right (by decide) h)
  rw [BitVec.toNat_ofNat, Nat.mod_eq_of_lt hlt]

theorem leBytes_leValue {bs : List Byte} (h : bs.length ≤ 8) :
    leBytes bs.length (BitVec.ofNat 64 (leValue bs)) = bs := by
  refine List.ext_getElem? fun j => ?_
  by_cases hj : j < bs.length
  · rw [leBytes_getElem? hj, List.getElem?_eq_getElem hj]
    refine congrArg some (BitVec.eq_of_toNat_eq ?_)
    rw [toNat_ushiftRight_byte, toNat_ofNat_leValue h, leValue_byte, List.getElem?_eq_getElem hj, Option.getD_some]
  · simp [leBytes, hj]

/-! ### Byte strings cut into pieces of one length -/

/-- In a concatenation of pieces of length `k`, position `k * i + j` is position `j` of piece `i`. -/
theorem getElem?_flatMap_of_length_eq {α β : Type} {f : α → List β} {k : Nat} (hf : ∀ a, (f a).length = k)
    (l : List α) (i : Nat) {j : Nat} (hj : j < k) :
    (l.flatMap f)[k * i + j]? = l[i]?.bind fun a => (f a)[j]? := by
  induction l generalizing i with
  | nil => simp
  | cons a l ih =>
    rw [List.flatMap_cons]
    cases i with
    | zero => rw [Nat.mul_zero, Nat.zero_add, List.getElem?_append_left (by rw [hf]; exact hj)]; rfl
    | succ i =>
      rw [List.getElem?_append_right (by rw [hf, Nat.mul_succ]; omega), hf,
        show k * (i + 1) + j - k = k * i + j by rw [Nat.mul_succ]; omega, ih, List.getElem?_cons_succ]

end Sys2Proof
end

section
/-! PROOFS. The register snapshot (10_state.md R23): what the encoder and the decoder of a register file do to each
byte and each lane, and that encoding undoes decoding. -/

namespace Sys2Proof.Machine

/-- The eight bytes of register `r` in a snapshot. -/
def laneBytes (bs : List Byte) (r : Reg) : List Byte := (bs.drop (8 * r)).take 8

/-! ### Lanes -/

theorem uns_eq (s : State) (r : Reg) : s.uns r = s.regs[r].toNat := rfl

theorem laneBytes_length {bs : List Byte} (h : bs.length = snapshotLen) (r : Reg) :
    (laneBytes bs r).length = 8 := by
  have hr := r.isLt
  simp only [laneBytes, List.length_take, List.length_drop, h, snapshotLen]
  omega

theorem laneBytes_getElem? (bs : List Byte) (r : Reg) {j : Nat} (hj : j < 8) :
    (laneBytes bs r)[j]? = bs[8 * r.val + j]? := by
  rw [laneBytes, List.getElem?_take_of_lt hj, List.getElem?_drop]

theorem decodeRegs_getElem (bs : List Byte) (r : Reg) :
    (decodeRegs bs)[r] = BitVec.ofNat 64 (leValue (laneBytes bs r)) := by
  simp [decodeRegs, laneBytes]

theorem leBytes_decodeRegs {bs : List Byte} (h : bs.length = snapshotLen) (r : Reg) :
    leBytes 8 (decodeRegs bs)[r] = laneBytes bs r := by
  have hlen := laneBytes_length h r
  calc leBytes 8 (decodeRegs bs)[r]
      = leBytes (laneBytes bs r).length (BitVec.ofNat 64 (leValue (laneBytes bs r))) := by
        rw [decodeRegs_getElem, hlen]
    _ = laneBytes bs r := leBytes_leValue hlen.le

/-- A decoded lane is the little-endian sum of its eight bytes of the snapshot. -/
theorem toNat_decodeRegs {bs : List Byte} (h : bs.length = snapshotLen) (r : Reg) :
    (decodeRegs bs)[r].toNat = ∑ j ∈ Finset.range 8, (bs[8 * r.val + j]?.getD 0).toNat * 2 ^ (8 * j) := by
  have hlen := laneBytes_length h r
  rw [decodeRegs_getElem, toNat_ofNat_leValue hlen.le, leValue_eq_sum, hlen]
  refine Finset.sum_congr rfl fun j hj => ?_
  rw [laneBytes_getElem? bs r (Finset.mem_range.mp hj)]

/-! ### The whole register file -/

@[simp] theorem encodeRegs_length (regs : Vector Word 13) : (encodeRegs regs).length = snapshotLen := by
  simp [encodeRegs, List.length_flatMap, snapshotLen]

theorem encodeRegs_getElem? (regs : Vector Word 13) (r : Reg) {j : Nat} (hj : j < 8) :
    (encodeRegs regs)[8 * r.val + j]? = (leBytes 8 regs[r])[j]? := by
  rw [encodeRegs, getElem?_flatMap_of_length_eq (leBytes_length 8) _ _ hj,
    List.getElem?_eq_getElem (by simp), Option.bind_some, Vector.getElem_toList]
  rfl

/-- Position `n` of a snapshot is byte `n % 8` of register `n / 8`. -/
theorem encodeRegs_decodeRegs {bs : List Byte} (h : bs.length = snapshotLen) :
    encodeRegs (decodeRegs bs) = bs := by
  refine List.ext_getElem? fun n => ?_
  by_cases hn : n < snapshotLen
  · obtain ⟨r, j, hj, rfl⟩ : ∃ (r : Reg) (j : Nat), j < 8 ∧ n = 8 * r.val + j :=
      ⟨⟨n / 8, by rw [snapshotLen] at hn; omega⟩, n % 8, by omega, (Nat.div_add_mod n 8).symm⟩
    rw [encodeRegs_getElem? _ r hj, leBytes_decodeRegs h, laneBytes_getElem? bs r hj]
  · rw [List.getElem?_eq_none (by rw [encodeRegs_length]; omega), List.getElem?_eq_none (by omega)]

/-! ### The host's two calls -/

theorem getAllEncoded_initialized {s : State} (h : s.life = .initialized) :
    getAllEncoded s = .ok (encodeRegs s.regs) := guarded_initialized h _

theorem setAllEncoded_of_length {s : State} (h : s.life = .initialized) {bs : List Byte}
    (hlen : bs.length = snapshotLen) : setAllEncoded bs s = .next { s with regs := decodeRegs bs } := by
  rw [setAllEncoded, guarded_initialized h, if_pos hlen, hostAnswer_ok]

theorem setAllEncoded_of_length_ne {s : State} (h : s.life = .initialized) {bs : List Byte}
    (hlen : bs.length ≠ snapshotLen) : setAllEncoded bs s = .refused .invalidLength := by
  rw [setAllEncoded, guarded_initialized h, if_neg hlen, hostAnswer_error]

/-- Settles O33: the encoder's bytes are the lanes' bytes, the decoder's lanes are the little-endian sums, and
encoding undoes decoding. -/
theorem registerSnapshot : Obligations.RegisterSnapshot := by
  intro s bytes hlife
  refine ⟨⟨_, getAllEncoded_initialized hlife, encodeRegs_length _, fun r j hj => ?_⟩, fun hlen => ?_,
    setAllEncoded_of_length_ne hlife⟩
  · rw [encodeRegs_getElem? _ r hj]
    exact leBytes_byte hj (s.reg r)
  · refine ⟨_, setAllEncoded_of_length hlife hlen, rfl, fun r => ?_, ?_⟩
    · rw [uns_eq, toNat_decodeRegs hlen r]
      push_cast
      rfl
    · have hlife' : ({ s with regs := decodeRegs bytes } : State).life = .initialized := hlife
      rw [getAllEncoded_initialized hlife', encodeRegs_decodeRegs hlen]

end Sys2Proof.Machine
end

section
/-! PROOFS. The register accessors (10_state.md R22): what each does at a register and at an index above 12. -/

namespace Sys2Proof.Machine

/-! ### At a register -/

section AtRegister
variable {s : State} (h : s.life = .initialized) (r : Reg)
include h

theorem getU64_initialized : getU64 s r = .ok (s.reg r) := withReg_initialized h r _

theorem getU32_initialized : getU32 s r = .ok (lo32 (s.reg r)) := withReg_initialized h r _

theorem getLowerI32_initialized : getLowerI32 s r = .ok (sView 32 (s.uns r)) := by
  rw [getLowerI32, withReg_initialized h, State.uns, sView_32]

theorem getBytesAsLittleEndian_initialized {n : Nat} (h1 : 1 ≤ n) (h8 : n ≤ 8) :
    getBytesAsLittleEndian s r n = .ok (leBytes n (s.reg r)) := by
  rw [getBytesAsLittleEndian, withReg_initialized h, if_pos ⟨h1, h8⟩]

theorem setU64_initialized (v : Nat) : setU64 r v s = .next (s.setReg r (BitVec.ofNat 64 v)) := by
  rw [setU64, withReg_initialized h, hostAnswer_ok]

theorem setU32_initialized (v : Nat) : setU32 r v s = .next (s.setReg r (sext32 (BitVec.ofNat 32 v))) := by
  rw [setU32, withReg_initialized h, hostAnswer_ok]

end AtRegister

/-! ### At an index above 12 -/

section AboveTwelve
variable {s : State} (h : s.life = .initialized) {i : Nat} (hi : 12 < i)
include h hi

theorem getU64_index : getU64 s i = .error .registerIndex := withReg_index h hi _

theorem getU32_index : getU32 s i = .error .registerIndex := withReg_index h hi _

theorem getLowerI32_index : getLowerI32 s i = .error .registerIndex := withReg_index h hi _

theorem getBytesAsLittleEndian_index (n : Nat) : getBytesAsLittleEndian s i n = .error .registerIndex :=
  withReg_index h hi _

theorem setU64_index (v : Nat) : setU64 i v s = .refused .registerIndex := by
  rw [setU64, withReg_index h hi, hostAnswer_error]

theorem setU32_index (v : Nat) : setU32 i v s = .refused .registerIndex := by
  rw [setU32, withReg_index h hi, hostAnswer_error]

end AboveTwelve

/-! ### The written values as the statements write them -/

theorem toNat_lo32 (v : Word) : (lo32 v).toNat = v.toNat % 2 ^ 32 := BitVec.toNat_setWidth 32 v

theorem ofNat_eq_fromSigned (v : Nat) : BitVec.ofNat 64 v = fromSigned ((v : Int) % 2 ^ 64) := by
  rw [fromSigned, ofInt_emod, BitVec.ofInt_natCast]

theorem sext32_ofNat (v : Nat) : sext32 (BitVec.ofNat 32 v) = sext 32 ((v : Int) % 2 ^ 32) := by
  rw [sext_eq (by decide), ofInt_emod, BitVec.ofInt_natCast, sext32]

/-- Settles O34, from what each accessor does at a register and at an index above 12. -/
theorem registerAccessors : Obligations.RegisterAccessors := by
  intro s v hlife
  refine ⟨fun r => ⟨getU64_initialized hlife r, ⟨_, getU32_initialized hlife r, ?_⟩,
    getLowerI32_initialized hlife r, fun n h1 h8 => ?_, ?_, ?_⟩, fun i hi => ?_⟩
  · rw [toNat_lo32, State.uns]; norm_cast
  · exact ⟨_, getBytesAsLittleEndian_initialized hlife r h1 h8, leBytes_length n _,
      fun j hj => leBytes_byte hj (s.reg r)⟩
  · rw [setU64_initialized hlife, State.setReg, ofNat_eq_fromSigned]
  · rw [setU32_initialized hlife, State.setReg, sext32_ofNat]
  · exact ⟨getU64_index hlife hi, getU32_index hlife hi, getLowerI32_index hlife hi,
      getBytesAsLittleEndian_index hlife hi, setU64_index hlife hi v, setU32_index hlife hi v⟩

end Sys2Proof.Machine
end

section
/-! PROOFS. The access check (20_memory.md R65 to R68): each of its three answers characterised. -/

namespace Sys2Proof.Machine

/-- The page refuses the access, in the words of the table of R62. -/
theorem Memory.denies_iff (m : Memory) (w : Bool) (p : Nat) :
    m.denies w p = true ↔ m.pageState p = .absent ∨ (m.pageState p = .readable ∧ w = true) := by
  unfold Memory.denies; cases m.pageState p <;> simp

theorem Memory.not_denies_iff (m : Memory) (w : Bool) (p : Nat) :
    m.denies w p = false ↔ ¬(m.pageState p = .absent ∨ (m.pageState p = .readable ∧ w = true)) := by
  rw [← m.denies_iff w p, Bool.not_eq_true]

/-- The pages are walked in ascending order, so the page found is the lowest of the range that satisfies `f`. -/
theorem find?_pagesOf_eq_some {a n p : Nat} (hn : 0 < n) (f : Nat → Bool) :
    (pagesOf a n).find? f = some p ↔
      f p = true ∧ (∃ j < n, (a + j) / config.pageSize = p) ∧
        ∀ j < n, (a + j) / config.pageSize < p → f ((a + j) / config.pageSize) = false := by
  rw [pagesOf, List.find?_range'_eq_some, ← pagesOf, mem_pagesOf hn]
  refine and_congr_right fun _ => and_congr_right fun ⟨k, hk, hkp⟩ => ?_
  constructor
  · intro below j _ hjp
    have hfirst : a / config.pageSize ≤ (a + j) / config.pageSize := Nat.div_le_div_right (Nat.le_add_right a j)
    simpa using below _ hfirst hjp
  · intro below q hq hqp
    have hmem : q ∈ pagesOf a n := by
      simp only [pagesOf, List.mem_range'_1] at hq hkp ⊢
      omega
    obtain ⟨j, hj, rfl⟩ := (mem_pagesOf hn).mp hmem
    simp [below j hj hqp]

/-! ### The three answers, one equation per branch -/

@[simp] theorem Memory.check_zero (m : Memory) (a : Nat) (w : Bool) : m.check a 0 w = .ok () := rfl

theorem Memory.check_of_passes_top (m : Memory) {a n : Nat} (w : Bool) (hn : 0 < n) (h : memorySize < a + n) :
    m.check a n w = .error (.outOfBounds a n) := by
  rw [Memory.check, if_neg hn.ne', if_pos h]

/-- Inside the address space the check answers for the first refusing page. -/
theorem Memory.check_of_inside (m : Memory) {a n : Nat} (w : Bool) (hn : 0 < n) (h : a + n ≤ memorySize) :
    m.check a n w = (((pagesOf a n).find? (m.denies w)).elim (.ok ()) fun p => .error (.pageFault p w)) := by
  rw [Memory.check, if_neg hn.ne', if_neg h.not_gt]
  cases (pagesOf a n).find? (m.denies w) <;> rfl

theorem Memory.check_outOfBounds_iff (m : Memory) (a n : Nat) (w : Bool) (a' n' : Nat) :
    m.check a n w = .error (.outOfBounds a' n') ↔ 0 < n ∧ memorySize < a + n ∧ a' = a ∧ n' = n := by
  rcases Nat.eq_zero_or_pos n with rfl | hn
  · simp
  rcases Nat.lt_or_ge memorySize (a + n) with hb | hb
  · simp [m.check_of_passes_top w hn hb, hn, hb, eq_comm]
  · rw [m.check_of_inside w hn hb]
    refine iff_of_false ?_ fun ⟨_, hb', _⟩ => hb.not_gt hb'
    cases (pagesOf a n).find? (m.denies w) <;> simp

theorem Memory.check_pageFault_iff (m : Memory) (a n : Nat) (w : Bool) (p : Nat) (w' : Bool) :
    m.check a n w = .error (.pageFault p w') ↔
      0 < n ∧ a + n ≤ memorySize ∧ w' = w ∧ (pagesOf a n).find? (m.denies w) = some p := by
  rcases Nat.eq_zero_or_pos n with rfl | hn
  · simp
  rcases Nat.lt_or_ge memorySize (a + n) with hb | hb
  · simp [m.check_of_passes_top w hn hb, hb.not_ge]
  · rw [m.check_of_inside w hn hb]
    cases (pagesOf a n).find? (m.denies w) with
    | none => simp
    | some q => simp [hn, hb, eq_comm, and_comm]

/-! ### The operations after the check -/

theorem Memory.loadInto_of_check_ok {m : Memory} {a n : Nat} (h : m.check a n false = .ok ()) :
    m.loadInto a n = .ok (m.bytes a n) := by rw [Memory.loadInto, h]

theorem Memory.loadInto_of_check_error {m : Memory} {a n : Nat} {e : Fault} (h : m.check a n false = .error e) :
    m.loadInto a n = .error e := by rw [Memory.loadInto, h]

theorem Memory.storeFrom_of_check_ok {m : Memory} {a : Nat} {bs : List Byte}
    (h : m.check a bs.length true = .ok ()) : m.storeFrom a bs = .ok (m.setBytes a bs) := by
  rw [Memory.storeFrom, h]

theorem Memory.storeFrom_of_check_error {m : Memory} {a : Nat} {bs : List Byte} {e : Fault}
    (h : m.check a bs.length true = .error e) : m.storeFrom a bs = .error e := by rw [Memory.storeFrom, h]

/-- Settles O30, one characterisation per answer of the check. -/
theorem accessCheckOutcome : Obligations.AccessCheckOutcome := by
  intro m a n w refuses
  refine ⟨?_, m.check_outOfBounds_iff a n w, fun p w' => ?_, Memory.loadInto_of_check_ok (m.check_zero a false),
    Memory.storeFrom_of_check_ok (m.check_zero a true)⟩
  · simp only [refuses, ← m.not_denies_iff]
    exact m.check_ok_iff a n w
  · rw [m.check_pageFault_iff]
    refine and_congr_right fun hn => and_congr_right fun _ => and_congr_right fun _ => ?_
    rw [find?_pagesOf_eq_some hn, and_left_comm, m.denies_iff]
    simp only [m.not_denies_iff, refuses]

end Sys2Proof.Machine
end

section
/-! PROOFS. The access operations (20_memory.md R65, R70, R81): what a load delivers, what a store leaves, and that
the one reads what the other wrote. -/

namespace Sys2Proof.Machine

/-! ### What a load delivers -/

@[simp] theorem Memory.bytes_length (m : Memory) (a n : Nat) : (m.bytes a n).length = n := by simp [Memory.bytes]

theorem Memory.bytes_getElem? (m : Memory) (a : Nat) {n j : Nat} (hj : j < n) :
    (m.bytes a n)[j]? = some (m.byte (a + j)) := by
  simp [Memory.bytes, hj]

/-! ### What a store leaves -/

/-- The byte law of `storeFrom`. A zero-length store may stand past the top of the address space, and writes
nothing. -/
theorem Memory.byte_storeFrom {m m' : Memory} {a : Nat} {bs : List Byte} (hm : m.wf)
    (h : m.storeFrom a bs = .ok m') (x : Nat) :
    m'.byte x = if a ≤ x ∧ x < a + bs.length then bs.getD (x - a) 0 else m.byte x := by
  obtain ⟨rfl, hempty | ⟨htop, hpages⟩⟩ := Memory.storeFrom_ok h
  · rw [List.length_eq_zero_iff.mp hempty, if_neg (by simp)]
    rfl
  · exact Memory.byte_setBytes hm htop (fun j hj => by simp [hpages j hj]) x

/-- A successful `storeFrom` writes its bytes and nothing else. -/
theorem Memory.storeFrom_wrote {m m' : Memory} {a : Nat} {bs : List Byte} (hm : m.wf)
    (h : m.storeFrom a bs = .ok m') : m.Wrote m' a bs.length fun j => bs[j]?.getD 0 := by
  have hset : m' = m.setBytes a bs := (Memory.storeFrom_ok h).1
  constructor
  case wf => exact Memory.storeFrom_wf hm h
  case pages => intro p; rw [hset, Memory.setBytes_pageState]
  case heap => rw [hset]; exact Memory.setBytes_heap m a bs
  case inside =>
    intro j hj
    rw [Memory.byte_storeFrom hm h, if_pos ⟨by omega, by omega⟩, Nat.add_sub_cancel_left,
      List.getD_eq_getElem?_getD]
  case outside =>
    intro x hx
    rw [Memory.byte_storeFrom hm h, if_neg (by omega)]

/-- Settles O31: the answers of the two operations after each answer of the check. -/
theorem accessOperations : Obligations.AccessOperations := by
  intro m a n bytes hm
  refine ⟨fun h => ?_, fun e => Memory.loadInto_of_check_error, fun h => ?_,
    fun e => Memory.storeFrom_of_check_error⟩
  · exact ⟨m.bytes a n, Memory.loadInto_of_check_ok h, m.bytes_length a n, fun j hj => m.bytes_getElem? a hj⟩
  · have hstore := Memory.storeFrom_of_check_ok h
    exact ⟨_, hstore, Memory.storeFrom_wrote hm hstore⟩

/-! ### A load after a store -/

/-- A range that took a store grants a load: a Writable page refuses neither, and the store changed no page. -/
theorem Memory.check_read_after_storeFrom {m m' : Memory} {a : Nat} {bs : List Byte}
    (h : m.storeFrom a bs = .ok m') : m'.check a bs.length false = .ok () := by
  obtain ⟨rfl, hgrant⟩ := Memory.storeFrom_ok h
  refine (Memory.check_ok_iff ..).mpr (hgrant.imp_right fun ⟨htop, hpages⟩ => ⟨htop, fun j hj => ?_⟩)
  rw [Memory.denies_read, Memory.setBytes_pageState, hpages j hj]
  decide

theorem Memory.Wrote.bytes_eq {m m' : Memory} {a : Nat} {bs : List Byte}
    (h : m.Wrote m' a bs.length fun j => bs[j]?.getD 0) : m'.bytes a bs.length = bs := by
  refine List.ext_getElem (m'.bytes_length a _) fun j _ hj => ?_
  have hbyte : m'.byte (a + j) = bs[j] := by simpa [hj] using h.inside j hj
  simpa [Memory.bytes] using hbyte

/-- Settles O32: the load is granted, and the range holds the bytes the store wrote. -/
theorem storeThenLoadReturnsBytes : Obligations.StoreThenLoadReturnsBytes := by
  intro m m' a bytes hm h
  have hwrote := Memory.storeFrom_wrote hm h
  refine ⟨?_, hwrote.outside⟩
  rw [Memory.loadInto_of_check_ok (Memory.check_read_after_storeFrom h), hwrote.bytes_eq]

end Sys2Proof.Machine
end

section
/-! PROOFS. The instruction length (30_encoding.md R104): what `skip` answers, and the offset of the next
instruction. -/

namespace Sys2Proof

/-! ### The bytes counted -/

theorem unmarkedFrom_le (k : List Bool) (p fuel : Nat) : unmarkedFrom k p fuel ≤ fuel := by
  induction fuel generalizing p with
  | zero => exact Nat.le_refl 0
  | succ fuel ih =>
    have hrest := ih (p + 1)
    rw [unmarkedFrom]
    split <;> omega

theorem unmarked_of_lt_unmarkedFrom (k : List Bool) {p fuel j : Nat} (h : j < unmarkedFrom k p fuel) :
    k.getD (p + j) true = false := by
  induction fuel generalizing p j with
  | zero => exact absurd h (Nat.not_lt_zero j)
  | succ fuel ih =>
    rw [unmarkedFrom] at h
    split at h
    next => exact absurd h (Nat.not_lt_zero j)
    next hp =>
      cases j with
      | zero => simpa using hp
      | succ j =>
        have hj : k.getD (p + 1 + j) true = false := ih (by omega)
        rwa [show p + (j + 1) = p + 1 + j by omega]

/-- The count stops short of the fuel only at a marked offset. -/
theorem marked_at_unmarkedFrom (k : List Bool) {p fuel : Nat} (h : unmarkedFrom k p fuel < fuel) :
    k.getD (p + unmarkedFrom k p fuel) true = true := by
  induction fuel generalizing p with
  | zero => exact absurd h (Nat.not_lt_zero _)
  | succ fuel ih =>
    rw [unmarkedFrom] at h ⊢
    split at h
    next hp => rwa [if_pos hp]
    next hp =>
      have hrest : k.getD (p + 1 + unmarkedFrom k (p + 1) fuel) true = true := ih (by omega)
      rwa [if_neg hp, ← Nat.add_assoc]

theorem skip_le (k : List Bool) (i : Nat) : skip k i ≤ 24 := unmarkedFrom_le k (i + 1) 24

/-! ### The images that load -/

theorem Image.wf_iff (p : Image) :
    p.wf = true ↔ p.mask.length = p.code.length ∧ p.code.length ≤ config.maxCodeLen ∧
      ∀ o ∈ p.jumpTable, o < 0x100000000 := by
  simp [Image.wf, and_assoc]

theorem Image.code_length_le {p : Image} (h : p.wf = true) : p.code.length ≤ config.maxCodeLen :=
  (p.wf_iff.mp h).2.1

end Sys2Proof

namespace Sys2Proof.Machine

theorem State.instrLen_le (s : State) : s.instrLen ≤ 25 := by
  have hskip := skip_le s.image.mask s.pc.toNat
  rw [State.instrLen]
  omega

/-- The longest code is short enough for the longest instruction at its last offset to end below 2^32. -/
theorem State.toNat_nextPc {s : State} (hwf : s.image.wf = true) (hpc : s.pc.toNat < s.image.code.length) :
    s.nextPc.toNat = s.pc.toNat + s.instrLen := by
  have hcode := Image.code_length_le hwf
  have hlen := s.instrLen_le
  rw [config_maxCodeLen] at hcode
  rw [State.nextPc, BitVec.toNat_add, BitVec.toNat_ofNat, Nat.add_mod_mod, Nat.mod_eq_of_lt (by omega)]

/-- Settles O24, from what the count of unmarked bytes answers and the bound on the code's length. -/
theorem instructionLength : Obligations.InstructionLength := by
  refine ⟨fun k i => ⟨skip_le k i, fun j => unmarked_of_lt_unmarkedFrom k, marked_at_unmarkedFrom k⟩,
    fun s hwf hpc => ⟨rfl, ?_⟩⟩
  rw [State.toNat_nextPc hwf hpc, State.instrLen, Nat.add_assoc]

end Sys2Proof.Machine
end

section
/-! PROOFS. Immediates, offsets and register fields (30_encoding.md R106, R107) on the integers of the
statements. -/

namespace Sys2Proof

/-! ### The bytes read -/

@[simp] theorem bytesAt_length (bs : List Byte) (j n : Nat) : (bytesAt bs j n).length = n := by simp [bytesAt]

theorem bytesAt_getElem? (bs : List Byte) (j : Nat) {n m : Nat} (hm : m < n) :
    (bytesAt bs j n)[m]? = some (bs[j + m]?.getD 0) := by
  simp [bytesAt, byteAt, hm]

theorem leValue_bytesAt (bs : List Byte) (j n : Nat) :
    leValue (bytesAt bs j n) = ∑ m ∈ Finset.range n, (bs[j + m]?.getD 0).toNat * 2 ^ (8 * m) := by
  rw [leValue_eq_sum, bytesAt_length]
  refine Finset.sum_congr rfl fun m hm => ?_
  rw [bytesAt_getElem? bs j (Finset.mem_range.mp hm), Option.getD_some]

@[simp] theorem regOf_val (n : Nat) : (regOf n).val = min 12 n := rfl

end Sys2Proof

namespace Sys2Proof.Machine

/-! ### The sign extension of no byte, of some, of all -/

theorem sView_zero (v : Int) : sView 0 v = 0 := by simp [sView]

theorem sext_zero (v : Int) : sext 0 v = 0 := by rw [sext, sView_zero]; rfl

theorem sext_64 (v : Int) : sext 64 v = fromSigned v := by
  rw [sext_eq (by decide), BitVec.signExtend_eq, fromSigned]

/-- Sign-extending to the register width keeps the signed view. -/
theorem toInt_sext {N : Nat} (hN : N ≤ 64) (v : Int) : (sext N v).toInt = sView N v := by
  rcases Nat.eq_zero_or_pos N with rfl | hpos
  · rw [sext_zero, sView_zero]; rfl
  · rw [sext_eq hpos, BitVec.toInt_signExtend_of_le hN, sView_eq hpos]

/-- `signExtendBytes` of a natural number that was cut to a word first: the cut keeps every bit it reads. -/
theorem signExtendBytes_ofNat {n : Nat} (hn : n ≤ 8) (v : Nat) :
    signExtendBytes n (BitVec.ofNat 64 v) = sext (8 * n) v := by
  rcases Nat.eq_zero_or_pos n with rfl | hpos
  · rw [sext_zero]
    exact congrArg (BitVec.signExtend 64) (BitVec.eq_nil _)
  · rw [sext_eq (by omega), BitVec.ofInt_natCast, signExtendBytes, BitVec.setWidth_ofNat_of_le (by omega)]

/-! ### Immediates -/

theorem immAt_eq_sext (bs : List Byte) (j : Nat) {n : Nat} (hn : n ≤ 8) :
    immAt bs j n = sext (8 * n) (leValue (bytesAt bs j n)) := signExtendBytes_ofNat hn _

theorem immAt_zero (bs : List Byte) (j : Nat) : immAt bs j 0 = 0 := by
  rw [immAt_eq_sext bs j (Nat.zero_le 8), sext_zero]

/-- Settles O26: the immediate sign-extends the little-endian value of the bytes read. -/
theorem immediateValue : Obligations.ImmediateValue := by
  refine ⟨?_, regOf_val⟩
  intro bytes j n hn v
  have hv : (leValue (bytesAt bytes j n) : Int) = v := by
    rw [leValue_bytesAt]
    push_cast
    rfl
  have himm : immAt bytes j n = sext (8 * n) v := by rw [immAt_eq_sext bytes j hn, hv]
  refine ⟨himm, ?_, immAt_zero bytes j, ?_⟩
  · rw [offAt, himm, toInt_sext (by omega)]
  · rintro rfl
    rw [himm, sext_64]

end Sys2Proof.Machine
end

section
/-! PROOFS. The basic-block map (30_encoding.md R130, R131): where it is set, and the terminators. -/

namespace Sys2Proof

theorem isTerminator_iff (op : Nat) : isTerminator op = true ↔ op ∈ Machine.terminatorOpcodes := by
  simp only [isTerminator, Machine.terminatorOpcodes, List.contains_eq_mem, List.mem_cons, List.not_mem_nil, or_false,
    Bool.or_eq_true, Bool.and_eq_true, decide_eq_true_eq]
  omega

/-- Inside the code the byte read through `zeta` is the byte that stands there. -/
theorem isTerminator_byteAt {code : List Byte} {n : Nat} (hn : n < code.length) :
    isTerminator (byteAt code n).toNat = true ↔
      ∃ op, code[n]? = some op ∧ op.toNat ∈ Machine.terminatorOpcodes := by
  rw [isTerminator_iff, byteAt, List.getD_eq_getElem?_getD, List.getElem?_eq_getElem hn]
  simp

theorem getD_false_eq_true (k : List Bool) (o : Nat) : k.getD o false = true ↔ k[o]? = some true := by
  rw [List.getD_eq_getElem?_getD]
  cases k[o]? <;> simp

theorem isBlockStart_iff {p : Image} {o : Nat} (ho : o < p.code.length) :
    isBlockStart p o = true ↔ p.mask[o]? = some true ∧
      (o = 0 ∨ ∃ n < o, p.mask[n]? = some true ∧ n + 1 + skip p.mask n = o ∧
        ∃ op, p.code[n]? = some op ∧ op.toNat ∈ Machine.terminatorOpcodes) := by
  simp only [isBlockStart, Bool.and_eq_true, Bool.or_eq_true, beq_iff_eq, List.any_eq_true, List.mem_range,
    getD_false_eq_true]
  refine and_congr_right fun _ => or_congr_right (exists_congr fun n => and_congr_right fun hn => ?_)
  rw [isTerminator_byteAt (hn.trans ho), and_assoc]
  exact and_congr_right fun _ => and_comm

theorem blockMap_getD_iff (p : Image) (o : Nat) :
    (blockMap p).getD o false = true ↔ o < p.code.length ∧ isBlockStart p o = true := by
  rw [getD_false_eq_true, blockMap, List.getElem?_map]
  by_cases ho : o < p.code.length <;> simp [ho]

theorem terminatorOpcodes_assigned : ∀ op ∈ Machine.terminatorOpcodes, op ∈ Machine.assignedOpcodes := by decide

end Sys2Proof

namespace Sys2Proof.Machine

/-- Settles O29, from where the map is set and the membership of `T`. It holds of every image, loadable or not. -/
theorem basicBlockMap : Obligations.BasicBlockMap := by
  refine ⟨fun p o _ => ?_, rfl, by decide, terminatorOpcodes_assigned, fun op _ => isTerminator_iff op⟩
  rw [blockMap_getD_iff]
  exact and_congr_right isBlockStart_iff

end Sys2Proof.Machine
end

section
/-! PROOFS. The math values (40_math.md) on the integers of the statements: sums, differences and products. -/

namespace Sys2Proof.Machine

/-- An instruction whose meaning writes one register makes the state the statements name, with the value as they
write it. -/
theorem exec_wrote {i : Instr} {s : State} {r : Reg} {v w : Word} (hexec : exec i s = s.writeReg r v) (hv : v = w) :
    exec i s = .next (s.wrote r w) := by
  rw [hexec, writeReg_wrote, hv]

/-! ### Reduction to the width -/

theorem sext_32_emod (z : Int) : sext 32 (z % 2 ^ 32) = sext32 (BitVec.ofInt 32 z) := by
  rw [sext_eq (by decide), ofInt_emod, sext32]

theorem fromSigned_emod (z : Int) : fromSigned (z % 2 ^ 64) = BitVec.ofInt 64 z := by
  rw [fromSigned, ofInt_emod]

theorem ofInt_sub (N : Nat) (x y : Int) : BitVec.ofInt N (x - y) = BitVec.ofInt N x - BitVec.ofInt N y := by
  rw [Int.sub_eq_add_neg, BitVec.ofInt_add, BitVec.ofInt_neg, BitVec.sub_eq_add_neg]

/-! ### Sums and differences -/

theorem add32_eq (a b : Word) : add32 a b = sext 32 (((a.toNat : Int) + (b.toNat : Int)) % 2 ^ 32) := by
  rw [sext_32_emod, BitVec.ofInt_add, ← lo32_ofInt, ← lo32_ofInt, add32]

theorem add64_eq (a b : Word) : add64 a b = fromSigned (((a.toNat : Int) + (b.toNat : Int)) % 2 ^ 64) := by
  rw [fromSigned_emod, BitVec.ofInt_add, word_ofInt, word_ofInt, add64]

theorem sub32_eq (a b : Word) : sub32 a b = sext 32 (((a.toNat : Int) - (b.toNat : Int)) % 2 ^ 32) := by
  rw [sext_32_emod, ofInt_sub, ← lo32_ofInt, ← lo32_ofInt, sub32]

theorem sub64_eq (a b : Word) : sub64 a b = fromSigned (((a.toNat : Int) - (b.toNat : Int)) % 2 ^ 64) := by
  rw [fromSigned_emod, ofInt_sub, word_ofInt, word_ofInt, sub64]

/-- Settles O1: each instruction writes a sum or a difference of the words, which is the integers' reduced to the
width. -/
theorem addSubtractResults : Obligations.AddSubtractResults := by
  refine ⟨⟨rfl, rfl, rfl, rfl, rfl, rfl, rfl, rfl⟩, fun rD rA rB immX s => ⟨?_, ?_, ?_, ?_, ?_, ?_, ?_, ?_⟩⟩
  · exact exec_wrote rfl (add32_eq (s.reg rA) (s.reg rB))
  · exact exec_wrote rfl (add64_eq (s.reg rA) (s.reg rB))
  · exact exec_wrote rfl (add32_eq (s.reg rB) immX)
  · exact exec_wrote rfl (add64_eq (s.reg rB) immX)
  · exact exec_wrote rfl (sub32_eq (s.reg rA) (s.reg rB))
  · exact exec_wrote rfl (sub64_eq (s.reg rA) (s.reg rB))
  · exact exec_wrote rfl (sub32_eq immX (s.reg rB))
  · exact exec_wrote rfl (sub64_eq immX (s.reg rB))

/-! ### Products -/

theorem mul32_eq (a b : Word) : mul32 a b = sext 32 ((a.toNat : Int) * (b.toNat : Int) % 2 ^ 32) := by
  rw [sext_32_emod, BitVec.ofInt_mul, ← lo32_ofInt, ← lo32_ofInt, mul32]

theorem mul64_eq (a b : Word) : mul64 a b = fromSigned ((a.toNat : Int) * (b.toNat : Int) % 2 ^ 64) := by
  rw [fromSigned_emod, BitVec.ofInt_mul, word_ofInt, word_ofInt, mul64]

theorem mulUpperSS_eq (a b : Word) :
    mulUpperSS a b = fromSigned (sView 64 a.toNat * sView 64 b.toNat / 2 ^ 64) := by
  rw [sView_64, sView_64]; rfl

theorem mulUpperUU_eq (a b : Word) :
    mulUpperUU a b = fromSigned ((a.toNat : Int) * (b.toNat : Int) / 2 ^ 64) := by
  rw [mulUpperUU, fromSigned, ← BitVec.ofInt_natCast]; push_cast; rfl

theorem mulUpperSU_eq (a b : Word) :
    mulUpperSU a b = fromSigned (sView 64 a.toNat * (b.toNat : Int) / 2 ^ 64) := by
  rw [sView_64]; rfl

/-- Settles O2: each instruction writes a product of the words, or its upper half, which is the integers'. -/
theorem multiplyResults : Obligations.MultiplyResults := by
  refine ⟨⟨rfl, rfl, rfl, rfl, rfl, rfl, rfl⟩, fun rD rA rB immX s => ⟨?_, ?_, ?_, ?_, ?_, ?_, ?_⟩⟩
  · exact exec_wrote rfl (mul32_eq (s.reg rA) (s.reg rB))
  · exact exec_wrote rfl (mul64_eq (s.reg rA) (s.reg rB))
  · exact exec_wrote rfl (mul32_eq (s.reg rB) immX)
  · exact exec_wrote rfl (mul64_eq (s.reg rB) immX)
  · exact exec_wrote rfl (mulUpperSS_eq (s.reg rA) (s.reg rB))
  · exact exec_wrote rfl (mulUpperUU_eq (s.reg rA) (s.reg rB))
  · exact exec_wrote rfl (mulUpperSU_eq (s.reg rA) (s.reg rB))

end Sys2Proof.Machine
end

section
/-! PROOFS. Division and remainder (40_math.md R152, R168 to R175): both widths at once, on a `w`-bit dividend and
divisor whose result is sign-extended to the register. -/

namespace Sys2Proof.Machine

/-! ### The integer quotient and remainder -/

theorem truncDiv_eq_tdiv (a b : Int) : truncDiv a b = a.tdiv b := by
  have neg {n : Nat} : Int.negSucc n < 0 := Int.negSucc_lt_zero n
  have nonneg {n : Nat} : ¬ Int.ofNat n < 0 := Int.not_lt.mpr (Int.natCast_nonneg n)
  cases a with
  | ofNat m =>
    cases b with
    | ofNat n => exact if_pos (propext (iff_of_false nonneg nonneg))
    | negSucc n => exact if_neg fun h => nonneg (h.mpr neg)
  | negSucc m =>
    cases b with
    | ofNat n => exact if_neg fun h => nonneg (h.mp neg)
    | negSucc n => exact if_pos (propext (iff_of_true neg neg))

theorem signedRem_eq_tmod (a b : Int) : signedRem a b = a.tmod b := by
  cases a with
  | ofNat m =>
    have hm : ¬ Int.ofNat m < 0 := Int.not_lt.mpr (Int.natCast_nonneg m)
    cases b with
    | ofNat n => exact if_neg hm
    | negSucc n => exact if_neg hm
  | negSucc m =>
    have hm : Int.negSucc m < 0 := Int.negSucc_lt_zero m
    cases b with
    | ofNat n => exact if_pos hm
    | negSucc n => exact if_pos hm

/-! ### Bit vectors and their integer views -/

section AnyWidth
variable {w : Nat} (a b : BitVec w)

theorem signExtend_allOnes (hw : 0 < w) : (BitVec.allOnes w).signExtend 64 = allOnes64 := by
  rw [BitVec.signExtend, BitVec.toInt_allOnes, if_pos hw]; rfl

theorem toNat_cast_eq_zero_iff : ((b.toNat : Int) = 0) ↔ b = 0 := by
  rw [Int.natCast_eq_zero]
  exact BitVec.toNat_inj (y := 0)

theorem toInt_eq_zero_iff : b.toInt = 0 ↔ b = 0 := by
  rw [← BitVec.toInt_inj, BitVec.ofNat_eq_ofNat, BitVec.toInt_zero]

theorem toInt_eq_neg_one_iff (hw : 0 < w) : b.toInt = -1 ↔ b = -1 := by
  rw [BitVec.ofNat_eq_ofNat, BitVec.neg_one_eq_allOnes, ← BitVec.toInt_inj, BitVec.toInt_allOnes, if_pos hw]

/-- The signed overflow (40_math.md R170): the least dividend over `-1`. -/
theorem overflow_iff (hw : 0 < w) :
    (a.toInt = -2 ^ (w - 1) ∧ b.toInt = -1) ↔ (a = BitVec.intMin w ∧ b = -1) := by
  rw [toInt_eq_neg_one_iff b hw, ← BitVec.toInt_inj (x := a), BitVec.toInt_intMin_of_pos hw]

/-- Without the overflow the width holds the truncated quotient. -/
theorem toInt_ofInt_tdiv (h : ¬ (a = BitVec.intMin w ∧ b = -1)) :
    (BitVec.ofInt w (a.toInt.tdiv b.toInt)).toInt = a.toInt.tdiv b.toInt := by
  rw [BitVec.toInt_ofInt, ← BitVec.toInt_sdiv]
  exact BitVec.toInt_sdiv_of_ne_or_ne a b (Decidable.not_and_iff_or_not.mp h)

/-- The width holds the remainder. -/
theorem toInt_ofInt_tmod : (BitVec.ofInt w (a.toInt.tmod b.toInt)).toInt = a.toInt.tmod b.toInt := by
  rw [← BitVec.toInt_srem, BitVec.ofInt_toInt]

theorem sext_toNat (hw : 0 < w) : sext w a.toNat = a.signExtend 64 := by
  rw [sext_eq hw, BitVec.ofInt_natCast, BitVec.ofNat_toNat, BitVec.setWidth_eq]

/-! ### What the four operations of R152 write -/

theorem signExtend_divUnsigned (hw : 0 < w) : (divUnsigned a b).signExtend 64 =
    if (b.toNat : Int) = 0 then allOnes64 else sext w ((a.toNat : Int) / (b.toNat : Int)) := by
  simp only [divUnsigned, toNat_cast_eq_zero_iff]
  split
  · exact signExtend_allOnes hw
  · rw [← sext_toNat _ hw, BitVec.toNat_udiv, Int.natCast_ediv]

theorem signExtend_remUnsigned (hw : 0 < w) : (remUnsigned a b).signExtend 64 =
    if (b.toNat : Int) = 0 then sext w a.toNat else sext w ((a.toNat : Int) % (b.toNat : Int)) := by
  simp only [remUnsigned, toNat_cast_eq_zero_iff]
  split
  · exact (sext_toNat a hw).symm
  · rw [← sext_toNat _ hw, BitVec.toNat_umod, Int.natCast_emod]

theorem signExtend_divSigned (hw : 0 < w) : (divSigned a b).signExtend 64 =
    if b.toInt = 0 then allOnes64
    else if a.toInt = -2 ^ (w - 1) ∧ b.toInt = -1 then fromSigned a.toInt
    else fromSigned (truncDiv a.toInt b.toInt) := by
  simp only [divSigned, toInt_eq_zero_iff, overflow_iff a b hw]
  split
  · exact signExtend_allOnes hw
  · split
    · rfl
    next hover => rw [BitVec.signExtend, toInt_ofInt_tdiv a b hover, truncDiv_eq_tdiv, fromSigned]

theorem signExtend_remSigned (hw : 0 < w) : (remSigned a b).signExtend 64 =
    if a.toInt = -2 ^ (w - 1) ∧ b.toInt = -1 then 0
    else if b.toInt = 0 then fromSigned a.toInt
    else fromSigned (signedRem a.toInt b.toInt) := by
  simp only [remSigned, toInt_eq_zero_iff, overflow_iff a b hw]
  split
  · rw [BitVec.signExtend, BitVec.ofNat_eq_ofNat, BitVec.toInt_zero]; rfl
  · split
    · rfl
    · rw [BitVec.signExtend, toInt_ofInt_tmod, signedRem_eq_tmod, fromSigned]

end AnyWidth

/-! ### The eight instructions' values -/

theorem toNat_lo32_cast (v : Word) : (((lo32 v).toNat : Nat) : Int) = (v.toNat : Int) % 2 ^ 32 := by
  rw [toNat_lo32]; norm_cast

theorem fromSigned_sView_64 (v : Word) : fromSigned (sView 64 v.toNat) = v := by
  rw [sView_64, fromSigned, BitVec.ofInt_toInt]

theorem divU32_eq (a b : Word) : divU32 a b = if (b.toNat : Int) % 2 ^ 32 = 0 then allOnes64
    else sext 32 ((a.toNat : Int) % 2 ^ 32 / ((b.toNat : Int) % 2 ^ 32)) := by
  rw [divU32, sext32, signExtend_divUnsigned _ _ (by decide), toNat_lo32_cast, toNat_lo32_cast]

theorem divU64_eq (a b : Word) : divU64 a b = if (b.toNat : Int) = 0 then allOnes64
    else fromSigned ((a.toNat : Int) / (b.toNat : Int)) := by
  rw [divU64, ← BitVec.signExtend_eq (divUnsigned a b), signExtend_divUnsigned _ _ (by decide), sext_64]

theorem divS32_eq (a b : Word) : divS32 a b = if sView 32 b.toNat = 0 then allOnes64
    else if sView 32 a.toNat = -2 ^ 31 ∧ sView 32 b.toNat = -1 then fromSigned (sView 32 a.toNat)
    else fromSigned (truncDiv (sView 32 a.toNat) (sView 32 b.toNat)) := by
  rw [divS32, sext32, signExtend_divSigned _ _ (by decide), sView_32, sView_32]

theorem divS64_eq (a b : Word) : divS64 a b = if sView 64 b.toNat = 0 then allOnes64
    else if sView 64 a.toNat = -2 ^ 63 ∧ sView 64 b.toNat = -1 then a
    else fromSigned (truncDiv (sView 64 a.toNat) (sView 64 b.toNat)) := by
  rw [divS64, ← BitVec.signExtend_eq (divSigned a b), signExtend_divSigned _ _ (by decide), ← sView_64, ← sView_64,
    fromSigned_sView_64]

theorem remU32_eq (a b : Word) : remU32 a b = if (b.toNat : Int) % 2 ^ 32 = 0 then sext 32 ((a.toNat : Int) % 2 ^ 32)
    else sext 32 ((a.toNat : Int) % 2 ^ 32 % ((b.toNat : Int) % 2 ^ 32)) := by
  rw [remU32, sext32, signExtend_remUnsigned _ _ (by decide), toNat_lo32_cast, toNat_lo32_cast]

theorem remU64_eq (a b : Word) : remU64 a b = if (b.toNat : Int) = 0 then a
    else fromSigned ((a.toNat : Int) % (b.toNat : Int)) := by
  rw [remU64, ← BitVec.signExtend_eq (remUnsigned a b), signExtend_remUnsigned _ _ (by decide), sext_64, sext_64,
    fromSigned, word_ofInt]

theorem remS32_eq (a b : Word) : remS32 a b = if sView 32 a.toNat = -2 ^ 31 ∧ sView 32 b.toNat = -1 then 0
    else if sView 32 b.toNat = 0 then fromSigned (sView 32 a.toNat)
    else fromSigned (signedRem (sView 32 a.toNat) (sView 32 b.toNat)) := by
  rw [remS32, sext32, signExtend_remSigned _ _ (by decide), sView_32, sView_32]

theorem remS64_eq (a b : Word) : remS64 a b = if sView 64 a.toNat = -2 ^ 63 ∧ sView 64 b.toNat = -1 then 0
    else if sView 64 b.toNat = 0 then a
    else fromSigned (signedRem (sView 64 a.toNat) (sView 64 b.toNat)) := by
  rw [remS64, ← BitVec.signExtend_eq (remSigned a b), signExtend_remSigned _ _ (by decide), ← sView_64, ← sView_64,
    fromSigned_sView_64]

/-- Settles O3: each instruction writes the value its operation of R152 gives at its width, zero divisor and overflow
included. -/
theorem divideRemainderResults : Obligations.DivideRemainderResults := by
  refine ⟨⟨rfl, rfl, rfl, rfl, rfl, rfl, rfl, rfl⟩, fun rD rA rB s => ⟨?_, ?_, ?_, ?_, ?_, ?_, ?_, ?_⟩⟩
  · exact exec_wrote rfl (divU32_eq (s.reg rA) (s.reg rB))
  · exact exec_wrote rfl (divU64_eq (s.reg rA) (s.reg rB))
  · exact exec_wrote rfl (divS32_eq (s.reg rA) (s.reg rB))
  · exact exec_wrote rfl (divS64_eq (s.reg rA) (s.reg rB))
  · exact exec_wrote rfl (remU32_eq (s.reg rA) (s.reg rB))
  · exact exec_wrote rfl (remU64_eq (s.reg rA) (s.reg rB))
  · exact exec_wrote rfl (remS32_eq (s.reg rA) (s.reg rB))
  · exact exec_wrote rfl (remS64_eq (s.reg rA) (s.reg rB))

end Sys2Proof.Machine
end

section
/-! PROOFS. Minimum and maximum (40_math.md R176 to R179) on the integer views of the statements. -/

namespace Sys2Proof.Machine

theorem maxSigned_eq (a b : Word) : maxSigned a b = if sView 64 a.toNat ≥ sView 64 b.toNat then a else b := by
  rw [sView_64, sView_64]; rfl

theorem minSigned_eq (a b : Word) : minSigned a b = if sView 64 a.toNat ≤ sView 64 b.toNat then a else b := by
  rw [sView_64, sView_64]; rfl

theorem maxUnsigned_eq (a b : Word) : maxUnsigned a b = fromSigned (max (a.toNat : Int) (b.toNat : Int)) := by
  rw [maxUnsigned, fromSigned]
  split
  next h => rw [max_eq_left (Int.ofNat_le.mpr h), word_ofInt]
  next h => rw [max_eq_right (Int.ofNat_le.mpr (Nat.le_of_not_le h)), word_ofInt]

theorem minUnsigned_eq (a b : Word) : minUnsigned a b = fromSigned (min (a.toNat : Int) (b.toNat : Int)) := by
  rw [minUnsigned, fromSigned]
  split
  next h => rw [min_eq_left (Int.ofNat_le.mpr h), word_ofInt]
  next h => rw [min_eq_right (Int.ofNat_le.mpr (Nat.le_of_not_le h)), word_ofInt]

/-- Settles O4: each instruction writes the source that its view of the two picks. -/
theorem minimumMaximumResults : Obligations.MinimumMaximumResults := by
  refine ⟨⟨rfl, rfl, rfl, rfl⟩, fun rD rA rB s => ⟨?_, ?_, ?_, ?_⟩⟩
  · exact exec_wrote rfl (maxSigned_eq (s.reg rA) (s.reg rB))
  · exact exec_wrote rfl (maxUnsigned_eq (s.reg rA) (s.reg rB))
  · exact exec_wrote rfl (minSigned_eq (s.reg rA) (s.reg rB))
  · exact exec_wrote rfl (minUnsigned_eq (s.reg rA) (s.reg rB))

end Sys2Proof.Machine
end

section
/-! PROOFS. The shifts (41_shift.md R190): each is a multiplication or a floor division by a power of two of the
integers of the statements. -/

namespace Sys2Proof.Machine

/-! ### The three shifts at any width -/

section AnyWidth
variable {w : Nat} (k : Nat)

theorem ofInt_two_pow : BitVec.ofInt w (2 ^ k) = BitVec.twoPow w k := by
  have hcast : (2 : Int) ^ k = ((2 ^ k : Nat) : Int) := by push_cast; rfl
  apply BitVec.eq_of_toNat_eq
  rw [hcast, BitVec.ofInt_natCast, BitVec.toNat_ofNat, BitVec.toNat_twoPow]

/-- Left: the bits lost at the top are what reduction to the width drops from the product. -/
theorem ofInt_shiftLeft (z : Int) : BitVec.ofInt w z <<< k = BitVec.ofInt w (z * 2 ^ k) := by
  rw [BitVec.shiftLeft_eq_mul_twoPow, BitVec.ofInt_mul, ofInt_two_pow]

/-- Logical right: the floor on the unsigned view. -/
theorem toNat_ushiftRight_cast (a : BitVec w) : ((a >>> k).toNat : Int) = (a.toNat : Int) / 2 ^ k := by
  rw [BitVec.toNat_ushiftRight, Nat.shiftRight_eq_div_pow]
  push_cast
  rfl

/-- Arithmetic right: the floor on the signed view. -/
theorem toInt_sshiftRight_div (a : BitVec w) : (a.sshiftRight k).toInt = a.toInt / 2 ^ k := by
  rw [BitVec.toInt_sshiftRight, Int.shiftRight_eq_div_pow, Nat.cast_pow, Nat.cast_ofNat]

end AnyWidth

/-! ### The six values -/

theorem shloL32_eq (v n : Word) : shloL32 v n = sext 32 (shiftLeftLaw 32 v n) := by
  rw [shiftLeftLaw, sext_32_emod, ← ofInt_shiftLeft, ← lo32_ofInt, shloL32]

theorem shloL64_eq (v n : Word) : shloL64 v n = fromSigned (shiftLeftLaw 64 v n) := by
  rw [shiftLeftLaw, fromSigned_emod, ← ofInt_shiftLeft, word_ofInt, shloL64]

theorem shloR32_eq (v n : Word) : shloR32 v n = sext 32 (shiftRightLaw 32 v n) := by
  rw [shiftRightLaw, ← toNat_lo32_cast, ← toNat_ushiftRight_cast, sext_toNat _ (by decide), shloR32, sext32]

theorem shloR64_eq (v n : Word) : shloR64 v n = fromSigned (shiftRightLaw 64 v n) := by
  have hv : (v.toNat : Int) % 2 ^ 64 = v.toNat := by have := v.isLt; omega
  rw [shiftRightLaw, hv, ← toNat_ushiftRight_cast, fromSigned, word_ofInt, shloR64]

theorem sharR32_eq (v n : Word) : sharR32 v n = fromSigned (shiftArithLaw 32 v n) := by
  rw [shiftArithLaw, sView_32, ← toInt_sshiftRight_div, sharR32, sext32, BitVec.signExtend, fromSigned]

theorem sharR64_eq (v n : Word) : sharR64 v n = fromSigned (shiftArithLaw 64 v n) := by
  rw [shiftArithLaw, sView_64, ← toInt_sshiftRight_div, fromSigned, BitVec.ofInt_toInt, sharR64]

/-- Settles O5: each instruction writes the value of its shift of one register by another. -/
theorem shiftRegisterResults : Obligations.ShiftRegisterResults := by
  refine ⟨⟨rfl, rfl, rfl, rfl, rfl, rfl⟩, fun rD rA rB s => ⟨?_, ?_, ?_, ?_, ?_, ?_⟩⟩
  · exact exec_wrote rfl (shloL32_eq (s.reg rA) (s.reg rB))
  · exact exec_wrote rfl (shloL64_eq (s.reg rA) (s.reg rB))
  · exact exec_wrote rfl (shloR32_eq (s.reg rA) (s.reg rB))
  · exact exec_wrote rfl (shloR64_eq (s.reg rA) (s.reg rB))
  · exact exec_wrote rfl (sharR32_eq (s.reg rA) (s.reg rB))
  · exact exec_wrote rfl (sharR64_eq (s.reg rA) (s.reg rB))

/-- Settles O6: the same six values, with the immediate as the amount and, in the ALT forms, as the value. -/
theorem shiftImmediateResults : Obligations.ShiftImmediateResults := by
  refine ⟨⟨rfl, rfl, rfl, rfl, rfl, rfl, rfl, rfl, rfl, rfl, rfl, rfl⟩,
    fun rA rB immX s => ⟨?_, ?_, ?_, ?_, ?_, ?_, ?_, ?_, ?_, ?_, ?_, ?_⟩⟩
  · exact exec_wrote rfl (shloL32_eq (s.reg rB) immX)
  · exact exec_wrote rfl (shloL64_eq (s.reg rB) immX)
  · exact exec_wrote rfl (shloR32_eq (s.reg rB) immX)
  · exact exec_wrote rfl (shloR64_eq (s.reg rB) immX)
  · exact exec_wrote rfl (sharR32_eq (s.reg rB) immX)
  · exact exec_wrote rfl (sharR64_eq (s.reg rB) immX)
  · exact exec_wrote rfl (shloL32_eq immX (s.reg rB))
  · exact exec_wrote rfl (shloL64_eq immX (s.reg rB))
  · exact exec_wrote rfl (shloR32_eq immX (s.reg rB))
  · exact exec_wrote rfl (shloR64_eq immX (s.reg rB))
  · exact exec_wrote rfl (sharR32_eq immX (s.reg rB))
  · exact exec_wrote rfl (sharR64_eq immX (s.reg rB))

end Sys2Proof.Machine
end

section
/-! PROOFS. The logical operations (42_bit.md R211 to R219), bit by bit. -/

namespace Sys2Proof.Machine

theorem getLsbD_wordOfBits (f : Nat → Bool) {j : Nat} (hj : j < 64) : (wordOfBits f).getLsbD j = f j := by
  rw [wordOfBits, BitVec.getLsbD_ofNat, Nat.testBit_ofBits_lt _ _ hj, decide_eq_true hj, Bool.true_and]

/-- A word is the one the statements write when its 64 bits are the ones they name. -/
theorem eq_wordOfBits {v : Word} {f : Nat → Bool} (h : ∀ j < 64, v.getLsbD j = f j) : v = wordOfBits f :=
  BitVec.eq_of_getLsbD_eq fun j hj => (h j hj).trans (getLsbD_wordOfBits f hj).symm

theorem getLsbD_complement (v : Word) {j : Nat} (hj : j < 64) : (~~~v).getLsbD j = !v.getLsbD j := by
  rw [BitVec.getLsbD_not, decide_eq_true hj, Bool.true_and]

section Values
variable (a b : Word)

theorem and_eq_wordOfBits : a &&& b = wordOfBits fun j => a.getLsbD j && b.getLsbD j :=
  eq_wordOfBits fun _ _ => BitVec.getLsbD_and

theorem xor_eq_wordOfBits : a ^^^ b = wordOfBits fun j => xor (a.getLsbD j) (b.getLsbD j) :=
  eq_wordOfBits fun _ _ => BitVec.getLsbD_xor

theorem or_eq_wordOfBits : a ||| b = wordOfBits fun j => a.getLsbD j || b.getLsbD j :=
  eq_wordOfBits fun _ _ => BitVec.getLsbD_or

theorem andInv_eq_wordOfBits : andInv a b = wordOfBits fun j => a.getLsbD j && !b.getLsbD j :=
  eq_wordOfBits fun j hj => by rw [andInv, BitVec.getLsbD_and, getLsbD_complement b hj]

theorem orInv_eq_wordOfBits : orInv a b = wordOfBits fun j => a.getLsbD j || !b.getLsbD j :=
  eq_wordOfBits fun j hj => by rw [orInv, BitVec.getLsbD_or, getLsbD_complement b hj]

theorem xnor_eq_wordOfBits : xnor a b = wordOfBits fun j => !(xor (a.getLsbD j) (b.getLsbD j)) :=
  eq_wordOfBits fun j hj => by rw [xnor, getLsbD_complement _ hj, BitVec.getLsbD_xor]

end Values

/-- Settles O7: each instruction writes the word of its function of the operands' bits. -/
theorem logicalResults : Obligations.LogicalResults := by
  refine ⟨⟨rfl, rfl, rfl, rfl, rfl, rfl, rfl, rfl, rfl⟩,
    fun rD rA rB immX s => ⟨?_, ?_, ?_, ?_, ?_, ?_, ?_, ?_, ?_⟩⟩
  · exact exec_wrote rfl (and_eq_wordOfBits (s.reg rA) (s.reg rB))
  · exact exec_wrote rfl (xor_eq_wordOfBits (s.reg rA) (s.reg rB))
  · exact exec_wrote rfl (or_eq_wordOfBits (s.reg rA) (s.reg rB))
  · exact exec_wrote rfl (and_eq_wordOfBits (s.reg rB) immX)
  · exact exec_wrote rfl (xor_eq_wordOfBits (s.reg rB) immX)
  · exact exec_wrote rfl (or_eq_wordOfBits (s.reg rB) immX)
  · exact exec_wrote rfl (andInv_eq_wordOfBits (s.reg rA) (s.reg rB))
  · exact exec_wrote rfl (orInv_eq_wordOfBits (s.reg rA) (s.reg rB))
  · exact exec_wrote rfl (xnor_eq_wordOfBits (s.reg rA) (s.reg rB))

end Sys2Proof.Machine
end

section
/-! PROOFS. The rotates (42_bit.md R210, R220 to R227): the sum of the law is the union of the two parts the turn
makes, since they share no bit. -/

namespace Sys2Proof.Machine

/-! ### Both turns at any width -/

section AnyWidth
variable {w : Nat}

/-- The part shifted left has its low `m` bits clear, and the part that comes round fits in them. -/
theorem shiftLeft_or_shiftRight_eq_add {v m : Nat} (hv : v < 2 ^ w) (hm : m ≤ w) :
    v <<< m % 2 ^ w ||| v >>> (w - m) = v * 2 ^ m % 2 ^ w + v / 2 ^ (w - m) := by
  obtain ⟨k, rfl⟩ := Nat.exists_eq_add_of_le hm
  have hlow : v / 2 ^ k < 2 ^ m := Nat.div_lt_of_lt_mul (by rwa [← pow_add, Nat.add_comm])
  have hhigh : v * 2 ^ m % 2 ^ (m + k) = 2 ^ m * (v % 2 ^ k) := by
    rw [Nat.mul_comm, pow_add, Nat.mul_mod_mul_left]
  rw [Nat.shiftLeft_eq, Nat.shiftRight_eq_div_pow, Nat.add_sub_cancel_left, hhigh,
    Nat.two_pow_add_eq_or_of_lt hlow]

theorem toNat_rotateLeft_eq_rotlLaw (hw : 0 < w) (a : BitVec w) (n : Nat) :
    ((a.rotateLeft n).toNat : Int) = rotlLaw w a.toNat n := by
  rw [BitVec.toNat_rotateLeft, shiftLeft_or_shiftRight_eq_add a.isLt (Nat.mod_lt n hw).le, rotlLaw]

/-- Turning right by `m` is turning left by `w - m`, a full turn included. -/
theorem rotateRight_eq_rotateLeft_sub (hw : 0 < w) (a : BitVec w) (n : Nat) :
    a.rotateRight n = a.rotateLeft (w - n % w) := by
  have hn : n % w < w := Nat.mod_lt n hw
  apply BitVec.eq_of_toNat_eq
  rw [BitVec.toNat_rotateRight, BitVec.toNat_rotateLeft, Nat.or_comm]
  rcases Nat.eq_zero_or_pos (n % w) with hzero | hpos
  · simp [hzero, Nat.mod_eq_of_lt a.isLt, Nat.div_eq_of_lt a.isLt, Nat.shiftLeft_eq,
      Nat.shiftRight_eq_div_pow]
  · rw [Nat.mod_eq_of_lt (Nat.sub_lt hw hpos), Nat.sub_sub_self hn.le]

theorem toNat_rotateRight_eq_rotrLaw (hw : 0 < w) (a : BitVec w) (n : Nat) :
    ((a.rotateRight n).toNat : Int) = rotrLaw w a.toNat n := by
  rw [rotateRight_eq_rotateLeft_sub hw, toNat_rotateLeft_eq_rotlLaw hw, rotrLaw]

end AnyWidth

/-! ### The four values -/

theorem rotL64_eq (v n : Word) : rotL64 v n = fromSigned (rotlLaw 64 v.toNat n.toNat) := by
  rw [← toNat_rotateLeft_eq_rotlLaw (by decide), fromSigned, word_ofInt, rotL64, BitVec.rotateLeft_mod_eq_rotateLeft]

theorem rotR64_eq (v n : Word) : rotR64 v n = fromSigned (rotrLaw 64 v.toNat n.toNat) := by
  rw [← toNat_rotateRight_eq_rotrLaw (by decide), fromSigned, word_ofInt, rotR64,
    BitVec.rotateRight_mod_eq_rotateRight]

theorem rotL32_eq (v n : Word) : rotL32 v n = sext 32 (rotlLaw 32 (v.toNat % 2 ^ 32) n.toNat) := by
  rw [← toNat_lo32, ← toNat_rotateLeft_eq_rotlLaw (by decide), sext_toNat _ (by decide), rotL32, sext32,
    BitVec.rotateLeft_mod_eq_rotateLeft]

theorem rotR32_eq (v n : Word) : rotR32 v n = sext 32 (rotrLaw 32 (v.toNat % 2 ^ 32) n.toNat) := by
  rw [← toNat_lo32, ← toNat_rotateRight_eq_rotrLaw (by decide), sext_toNat _ (by decide), rotR32, sext32,
    BitVec.rotateRight_mod_eq_rotateRight]

/-- Settles O8: each instruction writes its turned value, the ALT forms with the immediate as the value. -/
theorem rotateResults : Obligations.RotateResults := by
  refine ⟨⟨rfl, rfl, rfl, rfl, rfl, rfl, rfl, rfl⟩, fun rD rA rB immX s => ⟨?_, ?_, ?_, ?_, ?_, ?_, ?_, ?_⟩⟩
  · exact exec_wrote rfl (rotL64_eq (s.reg rA) (s.reg rB))
  · exact exec_wrote rfl (rotL32_eq (s.reg rA) (s.reg rB))
  · exact exec_wrote rfl (rotR64_eq (s.reg rA) (s.reg rB))
  · exact exec_wrote rfl (rotR32_eq (s.reg rA) (s.reg rB))
  · exact exec_wrote rfl (rotR64_eq (s.reg rB) immX)
  · exact exec_wrote rfl (rotR64_eq immX (s.reg rB))
  · exact exec_wrote rfl (rotR32_eq (s.reg rB) immX)
  · exact exec_wrote rfl (rotR32_eq immX (s.reg rB))

end Sys2Proof.Machine
end

section
/-! PROOFS. The bit counts (42_bit.md R228 to R233): the 1 bits as a sum over positions, and the runs of 0 bits by
where a run along the positions ends. -/

namespace Sys2Proof.Machine

theorem ofCount_eq_fromSigned (n : Nat) : ofCount n = fromSigned n := (BitVec.ofInt_natCast 64 n).symm

theorem getLsbD_lo32 (v : Word) {j : Nat} (hj : j < 32) : (lo32 v).getLsbD j = v.getLsbD j := by
  rw [lo32, BitVec.getLsbD_setWidth, decide_eq_true hj, Bool.true_and]

theorem toNat_getLsbD {w : Nat} (v : BitVec w) (j : Nat) : (v.getLsbD j).toNat = v.toNat / 2 ^ j % 2 := by
  rw [← BitVec.testBit_toNat, Nat.toNat_testBit]

/-! ### The number of 1 bits -/

theorem length_filter_range (p : Nat → Bool) (w : Nat) :
    ((List.range w).filter p).length = ∑ j ∈ Finset.range w, (p j).toNat := by
  induction w with
  | zero => rfl
  | succ w ih =>
    rw [List.range_succ, List.filter_append, List.length_append, ih, Finset.sum_range_succ]
    cases hp : p w <;> simp [hp]

/-- The count in the form of the statements, of a vector whose bits are the low bits of a word. -/
theorem ofCount_countSetBits {w : Nat} {u : BitVec w} {v : Word} (h : ∀ j < w, u.getLsbD j = v.getLsbD j) :
    ofCount (countSetBits u) = fromSigned (∑ j ∈ Finset.range w, (v.toNat : Int) / 2 ^ j % 2) := by
  have hsum : countSetBits u = ∑ j ∈ Finset.range w, v.toNat / 2 ^ j % 2 := by
    rw [countSetBits, length_filter_range]
    exact Finset.sum_congr rfl fun j hj => by rw [h j (Finset.mem_range.mp hj), toNat_getLsbD]
  rw [ofCount_eq_fromSigned, hsum]
  push_cast
  rfl

/-! ### The runs of 0 bits -/

/-- `n` is the length of the run of `false` along `f 0` to `f (w - 1)`. -/
def IsFalseRun (f : Nat → Bool) (w n : Nat) : Prop :=
  n ≤ w ∧ (∀ j < n, f j = false) ∧ (n < w → f n = true)

theorem isFalseRun_takeWhile (f : Nat → Bool) (w : Nat) :
    IsFalseRun f w ((List.range w).takeWhile fun j => !f j).length := by
  have hle : (List.range w).findIdx f ≤ w := by simpa using List.findIdx_le_length (p := f) (xs := List.range w)
  have hlen : ((List.range w).takeWhile fun j => !f j).length = (List.range w).findIdx f := by
    simp [List.takeWhile_eq_take_findIdx_not, hle]
  rw [hlen]
  refine ⟨hle, fun j hj => ?_, fun hlt => ?_⟩
  · simpa using List.not_of_lt_findIdx hj
  · have hend := List.findIdx_getElem (p := f) (xs := List.range w) (w := by rwa [List.length_range])
    rwa [List.getElem_range] at hend

theorem IsFalseRun.congr {f g : Nat → Bool} {w n : Nat} (h : IsFalseRun f w n) (hfg : ∀ j < w, f j = g j) :
    IsFalseRun g w n := by
  obtain ⟨hle, hrun, hend⟩ := h
  exact ⟨hle, fun j hj => hfg j (hj.trans_le hle) ▸ hrun j hj, fun hn => hfg n hn ▸ hend hn⟩

theorem leadingZeroBits_isFalseRun {w : Nat} (v : BitVec w) :
    IsFalseRun (fun j => v.getLsbD (w - 1 - j)) w (leadingZeroBits v) := isFalseRun_takeWhile _ w

theorem trailingZeroBits_isFalseRun {w : Nat} (v : BitVec w) :
    IsFalseRun (fun j => v.getLsbD j) w (trailingZeroBits v) := isFalseRun_takeWhile _ w

theorem leadingZeroBits_lo32_isFalseRun (v : Word) :
    IsFalseRun (fun j => v.getLsbD (31 - j)) 32 (leadingZeroBits (lo32 v)) :=
  (leadingZeroBits_isFalseRun (lo32 v)).congr fun j _ => getLsbD_lo32 v (by omega)

theorem trailingZeroBits_lo32_isFalseRun (v : Word) :
    IsFalseRun (fun j => v.getLsbD j) 32 (trailingZeroBits (lo32 v)) :=
  (trailingZeroBits_isFalseRun (lo32 v)).congr fun _ hj => getLsbD_lo32 v hj

/-- An instruction that writes the length of a run meets the form in which the statements say so. -/
theorem exec_wrote_run {i : Instr} {s : State} {r : Reg} {f : Nat → Bool} {w n : Nat}
    (hexec : exec i s = s.writeReg r (ofCount n)) (hrun : IsFalseRun f w n) :
    ∃ n : Nat, n ≤ w ∧ exec i s = .next (s.wrote r (fromSigned n)) ∧
      (∀ j < n, f j = false) ∧ (n < w → f n = true) := by
  obtain ⟨hle, hzeros, hend⟩ := hrun
  exact ⟨n, hle, exec_wrote hexec (ofCount_eq_fromSigned n), hzeros, hend⟩

/-- Settles O9: each instruction writes its sum of bits or the length of its run. -/
theorem bitCountResults : Obligations.BitCountResults := by
  refine ⟨⟨rfl, rfl, rfl, rfl, rfl, rfl⟩, fun rD rA s => ⟨?_, ?_, ?_, ?_, ?_, ?_⟩⟩
  · exact exec_wrote rfl (ofCount_countSetBits fun _ _ => rfl)
  · exact exec_wrote rfl (ofCount_countSetBits fun _ => getLsbD_lo32 (s.reg rA))
  · exact exec_wrote_run rfl (leadingZeroBits_isFalseRun (s.reg rA))
  · exact exec_wrote_run rfl (leadingZeroBits_lo32_isFalseRun (s.reg rA))
  · exact exec_wrote_run rfl (trailingZeroBits_isFalseRun (s.reg rA))
  · exact exec_wrote_run rfl (trailingZeroBits_lo32_isFalseRun (s.reg rA))

end Sys2Proof.Machine
end

section
/-! PROOFS. The extensions and the byte reverse (42_bit.md R234 to R237). -/

namespace Sys2Proof.Machine

theorem signExtendBytes_eq {n : Nat} (hn : n ≤ 8) (v : Word) : signExtendBytes n v = sext (8 * n) v.toNat := by
  rw [← signExtendBytes_ofNat hn, BitVec.ofNat_toNat, BitVec.setWidth_eq]

theorem zeroExtend16_eq (v : Word) : (v.setWidth 16).setWidth 64 = fromSigned ((v.toNat : Int) % 2 ^ 16) := by
  have hcast : (v.toNat : Int) % 2 ^ 16 = ((v.setWidth 16).toNat : Int) := by
    rw [BitVec.toNat_setWidth]; push_cast; rfl
  rw [hcast, fromSigned, BitVec.ofInt_natCast, BitVec.ofNat_toNat]

/-- Byte `j` of the reversed bytes is byte `7 - j` of the word. -/
theorem leBytes_reverse_getElem? (v : Word) {j : Nat} (hj : j < 8) :
    (leBytes 8 v).reverse[j]? = some ((v >>> (8 * (7 - j))).setWidth 8) := by
  rw [List.getElem?_reverse (by rwa [leBytes_length]), leBytes_length, leBytes_getElem? (by omega)]

theorem leValue_reverse_leBytes (v : Word) : leValue (leBytes 8 v).reverse =
    ∑ j ∈ Finset.range 8, v.toNat / 2 ^ (8 * (7 - j)) % 256 * 2 ^ (8 * j) := by
  rw [leValue_eq_sum, List.length_reverse, leBytes_length]
  refine Finset.sum_congr rfl fun j hj => ?_
  rw [leBytes_reverse_getElem? v (Finset.mem_range.mp hj), Option.getD_some, toNat_ushiftRight_byte]

theorem reverseBytes_eq (v : Word) : reverseBytes v =
    fromSigned (∑ j ∈ Finset.range 8, (v.toNat : Int) / 2 ^ (8 * (7 - j)) % 256 * 2 ^ (8 * j)) := by
  rw [reverseBytes, leValue_reverse_leBytes, fromSigned, ← BitVec.ofInt_natCast]
  push_cast
  rfl

/-- Settles O10: each instruction writes its extension of the low bytes, or the bytes in reverse. -/
theorem extensionReverseResults : Obligations.ExtensionReverseResults := by
  refine ⟨⟨rfl, rfl, rfl, rfl⟩, fun rD rA s => ⟨?_, ?_, ?_, ?_⟩⟩
  · exact exec_wrote rfl (signExtendBytes_eq (n := 1) (by decide) (s.reg rA))
  · exact exec_wrote rfl (signExtendBytes_eq (n := 2) (by decide) (s.reg rA))
  · exact exec_wrote rfl (zeroExtend16_eq (s.reg rA))
  · exact exec_wrote rfl (reverseBytes_eq (s.reg rA))

end Sys2Proof.Machine
end

section
/-! PROOFS. The comparisons (43_boolean.md R240 to R246): each relation on the integer view it names. -/

namespace Sys2Proof.Machine

/-- The value of a comparison, by the proposition its relation tests. -/
theorem Cond.value_eq_ite {c : Cond} {a b : Word} {p : Prop} [Decidable p] (h : c.holds a b = true ↔ p) :
    c.value a b = if p then 1 else 0 := if_congr h rfl rfl

section Relations
variable (a b : Word)

theorem Cond.holds_ltU_iff : Cond.holds .ltU a b = true ↔ (a.toNat : Int) < b.toNat :=
  decide_eq_true_iff.trans Int.ofNat_lt.symm

theorem Cond.holds_gtU_iff : Cond.holds .gtU a b = true ↔ (a.toNat : Int) > b.toNat :=
  decide_eq_true_iff.trans Int.ofNat_lt.symm

theorem Cond.holds_ltS_iff : Cond.holds .ltS a b = true ↔ sView 64 a.toNat < sView 64 b.toNat := by
  rw [sView_64, sView_64]
  exact decide_eq_true_iff

theorem Cond.holds_gtS_iff : Cond.holds .gtS a b = true ↔ sView 64 a.toNat > sView 64 b.toNat := by
  rw [sView_64, sView_64]
  exact decide_eq_true_iff

end Relations

/-- Settles O11: each instruction writes the value of its relation, tested on the view it names. -/
theorem comparisonResults : Obligations.ComparisonResults := by
  refine ⟨⟨rfl, rfl, rfl, rfl, rfl, rfl⟩, fun rD rA rB immX s => ⟨?_, ?_, ?_, ?_, ?_, ?_⟩⟩
  · exact exec_wrote rfl (Cond.value_eq_ite (Cond.holds_ltU_iff (s.reg rA) (s.reg rB)))
  · exact exec_wrote rfl (Cond.value_eq_ite (Cond.holds_ltS_iff (s.reg rA) (s.reg rB)))
  · exact exec_wrote rfl (Cond.value_eq_ite (Cond.holds_ltU_iff (s.reg rB) immX))
  · exact exec_wrote rfl (Cond.value_eq_ite (Cond.holds_ltS_iff (s.reg rB) immX))
  · exact exec_wrote rfl (Cond.value_eq_ite (Cond.holds_gtU_iff (s.reg rB) immX))
  · exact exec_wrote rfl (Cond.value_eq_ite (Cond.holds_gtS_iff (s.reg rB) immX))

end Sys2Proof.Machine
end

section
/-! PROOFS. The moves (44_move.md R250 to R257): a conditional move tests all 64 bits of its register for zero. -/

namespace Sys2Proof.Machine

theorem reg_eq_zero_iff_uns (s : State) (r : Reg) : s.reg r = 0 ↔ s.uns r = 0 :=
  BitVec.toNat_inj.symm.trans Int.natCast_eq_zero.symm

/-- An instruction whose meaning writes one register under a condition makes one of the two states the statements
name, with the condition as they write it. -/
theorem exec_wrote_if {i : Instr} {s : State} {r : Reg} {v : Word} {p q : Prop} [Decidable p] [Decidable q]
    (hexec : exec i s = if p then s.writeReg r v else .next s.advance) (hpq : p ↔ q) :
    exec i s = .next (if q then s.wrote r v else s.passed) := by
  rw [hexec]
  by_cases hq : q
  · rw [if_pos (hpq.mpr hq), if_pos hq, writeReg_wrote]
  · rw [if_neg (mt hpq.mp hq), if_neg hq]
    rfl

/-- Settles O12: a plain move writes its value, a conditional one writes it when its zero test, read on the integer
view, holds. -/
theorem moveResults : Obligations.MoveResults := by
  refine ⟨⟨rfl, rfl, rfl, rfl, rfl, rfl, rfl⟩, fun rD rA rB immX s => ⟨?_, ?_, ?_, ?_, ?_, ?_, ?_⟩⟩
  · exact exec_wrote rfl rfl
  · exact exec_wrote_if rfl (reg_eq_zero_iff_uns s rB)
  · exact exec_wrote_if rfl (reg_eq_zero_iff_uns s rB).not
  · exact exec_wrote_if rfl (reg_eq_zero_iff_uns s rB)
  · exact exec_wrote_if rfl (reg_eq_zero_iff_uns s rB).not
  · exact exec_wrote rfl rfl
  · exact exec_wrote rfl rfl

end Sys2Proof.Machine
end

section
/-! PROOFS. The loads (45_load.md R260 to R274): when a read is granted and the value it answers, and from these the
two ends of any load. -/

namespace Sys2Proof.Machine

/-! ### The read -/

/-- The check of a read of at least one byte, in the words of the statements. -/
theorem Memory.check_read_ok_iff (m : Memory) (a : Nat) {n : Nat} (hn : 0 < n) :
    m.check a n false = .ok () ↔ m.mayRead a n := by
  simp only [m.check_ok_iff, Memory.denies_read, hn.ne', false_or]
  rfl

theorem leValue_bytes (m : Memory) (a n : Nat) : leValue (m.bytes a n) = m.leSum a n := by
  rw [leValue_eq_sum, m.bytes_length]
  refine Finset.sum_congr rfl fun j hj => ?_
  rw [m.bytes_getElem? a (Finset.mem_range.mp hj), Option.getD_some]

theorem Memory.read_of_mayRead {m : Memory} {a n : Nat} (hn : 0 < n) (h : m.mayRead a n) :
    m.read a n = .ok (BitVec.ofNat 64 (m.leSum a n)) := by
  rw [← leValue_bytes, Memory.read, Memory.loadInto_of_check_ok ((m.check_read_ok_iff a hn).mpr h)]

theorem Memory.read_of_not_mayRead {m : Memory} {a n : Nat} (hn : 0 < n) (h : ¬m.mayRead a n) :
    ∃ e, m.read a n = .error e := by
  cases hc : m.check a n false with
  | ok _ => exact absurd ((m.check_read_ok_iff a hn).mp hc) h
  | error e => exact ⟨e, by rw [Memory.read, Memory.loadInto_of_check_error hc]⟩

/-! ### The load, at any address and of any number of bytes -/

section Loads
variable {i : Instr} {s : State} {rA : Reg} {a n : Nat}

/-- An instruction whose meaning is a load has the two ends the statements name, with the extended value as they
write it. -/
theorem loadsFrom_of_exec {extend : Word → Word} {v : Word} (hexec : exec i s = load rA a n extend s) (hn : 0 < n)
    (hv : extend (BitVec.ofNat 64 (s.mem.leSum a n)) = v) : LoadsFrom i s rA a n v := by
  refine ⟨fun h => ?_, fun h => ?_⟩
  · rw [hexec, load, Memory.read_of_mayRead hn h, ← hv]
    exact writeReg_wrote s rA _
  · obtain ⟨e, he⟩ := Memory.read_of_not_mayRead hn h
    rw [hexec, load, he]
    rfl

theorem loadsFrom_unsigned (hexec : exec i s = load rA a n id s) (hn : 0 < n) :
    LoadsFrom i s rA a n (fromSigned (s.mem.leSum a n)) :=
  loadsFrom_of_exec hexec hn (BitVec.ofInt_natCast 64 (s.mem.leSum a n)).symm

theorem loadsFrom_signed (hexec : exec i s = load rA a n (signExtendBytes n) s) (hn : 0 < n) (h8 : n ≤ 8) :
    LoadsFrom i s rA a n (sext (8 * n) (s.mem.leSum a n)) :=
  loadsFrom_of_exec hexec hn (signExtendBytes_ofNat h8 (s.mem.leSum a n))

end Loads

/-- Settles O13: each instruction is a load at the address of its immediate, unsigned or signed. -/
theorem directLoadResults : Obligations.DirectLoadResults := by
  refine ⟨⟨rfl, rfl, rfl, rfl, rfl, rfl, rfl⟩, fun rA immX s => ⟨rfl, ?_, ?_, ?_, ?_, ?_, ?_, ?_⟩⟩
  · exact loadsFrom_unsigned rfl (by decide)
  · exact loadsFrom_signed rfl (by decide) (by decide)
  · exact loadsFrom_unsigned rfl (by decide)
  · exact loadsFrom_signed rfl (by decide) (by decide)
  · exact loadsFrom_unsigned rfl (by decide)
  · exact loadsFrom_signed rfl (by decide) (by decide)
  · exact loadsFrom_unsigned rfl (by decide)

/-- Settles O14: each instruction is a load at the base plus the immediate. The base is read before the destination
is written, so the two may be one register. -/
theorem indirectLoadResults : Obligations.IndirectLoadResults := by
  refine ⟨⟨rfl, rfl, rfl, rfl, rfl, rfl, rfl⟩, fun rA rB immX s => ⟨rfl, ?_, ?_, ?_, ?_, ?_, ?_, ?_⟩⟩
  · exact loadsFrom_unsigned rfl (by decide)
  · exact loadsFrom_signed rfl (by decide) (by decide)
  · exact loadsFrom_unsigned rfl (by decide)
  · exact loadsFrom_signed rfl (by decide) (by decide)
  · exact loadsFrom_unsigned rfl (by decide)
  · exact loadsFrom_signed rfl (by decide) (by decide)
  · exact loadsFrom_unsigned rfl (by decide)

end Sys2Proof.Machine
end

section
/-! PROOFS. The stores (46_store.md R280 to R296): when a write is granted and what it leaves in memory, and from these
the two ends of any store. -/

namespace Sys2Proof.Machine

/-! ### The write -/

/-- The check of a write of at least one byte, in the words of the statements. -/
theorem Memory.check_write_ok_iff (m : Memory) (a : Nat) {n : Nat} (hn : 0 < n) :
    m.check a n true = .ok () ↔ m.mayWrite a n := by
  simp only [m.check_ok_iff, Memory.denies_write, hn.ne', false_or]
  rfl

/-- Only the bytes of the range count in what was written. -/
theorem Memory.Wrote.congr {m m' : Memory} {a n : Nat} {f g : Nat → Byte} (h : m.Wrote m' a n f)
    (hfg : ∀ j < n, f j = g j) : m.Wrote m' a n g :=
  { h with inside := fun j hj => (h.inside j hj).trans (hfg j hj) }

theorem leBytes_getD {n j : Nat} (hj : j < n) (v : Word) :
    (leBytes n v)[j]?.getD 0 = BitVec.ofNat 8 (v.toNat / 2 ^ (8 * j) % 256) := by
  rw [leBytes_getElem? hj, Option.getD_some, ← toNat_ushiftRight_byte, BitVec.ofNat_toNat, BitVec.setWidth_eq]

/-- A successful `MemWrite` leaves the low bytes of its value, little-endian, and nothing else. -/
theorem Memory.write_wrote {m m' : Memory} {a n : Nat} {v : Word} (hm : m.wf) (h : m.write a n v = .ok m') :
    m.Wrote m' a n fun j => BitVec.ofNat 8 (v.toNat / 2 ^ (8 * j) % 256) := by
  have hwrote := Memory.storeFrom_wrote hm h
  rw [leBytes_length] at hwrote
  exact hwrote.congr fun j hj => leBytes_getD hj v

theorem Memory.write_of_mayWrite {m : Memory} {a n : Nat} (v : Word) (hn : 0 < n) (h : m.mayWrite a n) :
    ∃ m', m.write a n v = .ok m' := by
  refine ⟨_, Memory.storeFrom_of_check_ok ?_⟩
  rw [leBytes_length]
  exact (m.check_write_ok_iff a hn).mpr h

theorem Memory.mayWrite_of_write_ok {m m' : Memory} {a n : Nat} {v : Word} (hn : 0 < n)
    (h : m.write a n v = .ok m') : m.mayWrite a n := by
  obtain ⟨-, hempty | hgrant⟩ := Memory.storeFrom_ok h
  · exact absurd hempty (by rw [leBytes_length]; exact hn.ne')
  · rwa [leBytes_length] at hgrant

/-! ### The store, at any address and of any number of bytes -/

/-- An instruction whose meaning is a store has the two ends the statements name. -/
theorem storesTo_of_exec {i : Instr} {s : State} {a n : Nat} {v : Word} (hm : s.mem.wf)
    (hexec : exec i s = store a n v s) (hn : 0 < n) : StoresTo i s a n v := by
  rw [StoresTo, hexec]
  obtain ⟨m, hwrite, hstore⟩ | ⟨e, hwrite, hstore⟩ := store_cases a n v s
  · exact ⟨fun _ => ⟨m, hstore, Memory.write_wrote hm hwrite⟩,
      fun h => absurd (Memory.mayWrite_of_write_ok hn hwrite) h⟩
  · refine ⟨fun h => ?_, fun _ => hstore⟩
    obtain ⟨m, hok⟩ := Memory.write_of_mayWrite v hn h
    cases hwrite.symm.trans hok

/-- Settles O15: each instruction is a store of the source register, at the address of its immediate or at the base
plus the immediate. -/
theorem registerStoreResults : Obligations.RegisterStoreResults := by
  refine ⟨⟨rfl, rfl, rfl, rfl, rfl, rfl, rfl, rfl⟩, fun rA rB immX s hm =>
    ⟨rfl, rfl, ?_, ?_, ?_, ?_, ?_, ?_, ?_, ?_⟩⟩ <;>
  exact storesTo_of_exec hm rfl (by decide)

/-- Settles O16: each instruction is a store of the second immediate, at the address of the first or at the base plus
the first. -/
theorem immediateStoreResults : Obligations.ImmediateStoreResults := by
  refine ⟨⟨rfl, rfl, rfl, rfl, rfl, rfl, rfl, rfl⟩, fun rA immX immY s hm =>
    ⟨rfl, rfl, ?_, ?_, ?_, ?_, ?_, ?_, ?_, ?_⟩⟩ <;>
  exact storesTo_of_exec hm rfl (by decide)

end Sys2Proof.Machine
end

section
/-! PROOFS. Control transfer (47_control_flow.md R300 to R321): when a target is legal and which offset it is, and from
these the ends of any branch and of any dynamic jump, with or without a link write before it. -/

namespace Sys2Proof.Machine

/-! ### Legal targets, in the words of the statements -/

theorem State.blockAt_iff (s : State) (o : Nat) : s.blockAt o = true ↔ s.blocks[o]? = some true :=
  getD_false_eq_true s.blocks o

theorem State.legalTarget_iff_mayLand (s : State) (t : Int) : s.legalTarget t = true ↔ s.mayLand t := by
  rw [legalTarget_iff, s.blockAt_iff, State.mayLand]

theorem State.legalJump_iff_mayJump (s : State) (a : BitVec 32) : s.legalJump a = true ↔ s.mayJump a.toNat := by
  rw [legalJump_iff, s.blockAt_iff, State.mayJump]

/-- A legal target of a loaded image is a code offset as it stands: nothing is lost in making it 32 bits. -/
theorem State.mayLand.toNat_ofInt {s : State} {t : Int} (h : s.mayLand t) (hwf : s.image.wf = true) :
    ((BitVec.ofInt 32 t).toNat : Int) = t := by
  obtain ⟨hnonneg, hlt, -⟩ := h
  have hcode := Image.code_length_le hwf
  rw [config_maxCodeLen] at hcode
  rw [BitVec.toNat_ofInt]
  omega

/-- The address of a dynamic jump is the sum reduced mod 2^32 (47_control_flow.md R301). -/
theorem toNat_jumpAddr (base imm : Word) : (jumpAddr base imm).toNat = (base.toNat + imm.toNat) % 2 ^ 32 := by
  rw [jumpAddr, BitVec.toNat_setWidth, BitVec.toNat_add]
  exact Nat.mod_mod_of_dvd _ (by decide)

/-! ### The branch and the dynamic jump

Here `s1` is `s` with what the instruction writes before it transfers control: `s` itself, or `s` with the link
register written. The hypotheses on `s1` say that this write moves neither `pc` nor a legal target. -/

section Transfers
variable {i : Instr} {s s1 : State}

/-- An instruction whose meaning is a branch has the three ends the statements name, with the condition as they write
it. -/
theorem branchesTo_of_exec {off : Int} {taken : Bool} {cond : Prop} (hwf : s.image.wf = true)
    (hexec : exec i s = branch off taken s1) (hpc : s1.pc = s.pc)
    (hlegal : ∀ t, s1.legalTarget t = s.legalTarget t) (hcond : taken = true ↔ cond) :
    BranchesTo i s s1 (s.pc.toNat + off) cond := by
  have htarget : s1.branchTarget off = s.pc.toNat + off := by rw [State.branchTarget, hpc]
  have hland : s1.legalTarget (s1.branchTarget off) = true ↔ s.mayLand (s.pc.toNat + off) := by
    rw [htarget, hlegal, s.legalTarget_iff_mayLand]
  rw [BranchesTo, hexec, ← hcond, ← hland]
  obtain ⟨rfl, hpassed⟩ | ⟨rfl, hmay, hgone, -⟩ | ⟨rfl, hmay, hpanic⟩ := branch_cases off taken s1
  · exact ⟨fun _ => hpassed, nofun, nofun⟩
  · have hoffset := (hland.mp hmay).toNat_ofInt hwf
    rw [← htarget] at hoffset ⊢
    exact ⟨fun h => absurd rfl h, fun _ _ => ⟨_, hoffset, hgone⟩, fun _ h => absurd hmay h⟩
  · rw [hmay]
    exact ⟨fun h => absurd rfl h, nofun, fun _ _ => hpanic⟩

/-- A branch that writes nothing before it and tests a relation of two words. -/
theorem branchesTo_of_holds {off : Int} {c : Cond} {a b : Word} {cond : Prop} (hwf : s.image.wf = true)
    (hexec : exec i s = branch off (c.holds a b) s) (hcond : c.holds a b = true ↔ cond) :
    BranchesTo i s s (s.pc.toNat + off) cond :=
  branchesTo_of_exec hwf hexec rfl (fun _ => rfl) hcond

/-- An instruction whose meaning is a dynamic jump has the four ends the statements name. -/
theorem jumpsTo_of_exec {a : BitVec 32} (hexec : exec i s = djump a s1) (hparams : s1.params = s.params)
    (hlegal : s1.legalJump a = s.legalJump a) : JumpsTo i s s1 a.toNat := by
  have hzero : a.toNat = 0 ↔ a = 0 := BitVec.toNat_inj (y := 0)
  have hexit : a.toNat = s.params.exitAddr.toNat ↔ a = s1.params.exitAddr := by rw [hparams, BitVec.toNat_inj]
  have hmay : s.mayJump a.toNat ↔ s1.legalJump a = true := by rw [hlegal, s.legalJump_iff_mayJump]
  simp only [JumpsTo, hexec, ne_eq, hzero, hexit, hmay]
  obtain ⟨h0, hpanic⟩ | ⟨h0, h1, hhalt⟩ | ⟨h0, h1, hok, hgone, -⟩ | ⟨h0, h1, hbad, hpanic⟩ := djump_cases a s1
  · exact ⟨fun _ => hpanic, fun h => absurd h0 h, fun h => absurd h0 h, fun h => absurd h0 h⟩
  · exact ⟨fun h => absurd h h0, fun _ _ => hhalt, fun _ h => absurd h1 h, fun _ h => absurd h1 h⟩
  · exact ⟨fun h => absurd h h0, fun _ h => absurd h h1, fun _ _ _ => ⟨a, rfl, hgone⟩, fun _ _ h => absurd hok h⟩
  · rw [hbad]
    exact ⟨fun h => absurd h h0, fun _ h => absurd h h1, nofun, fun _ _ _ => hpanic⟩

end Transfers

/-! ### The other relations, on the integer view each names -/

section Relations
variable (a b : Word)

theorem Cond.holds_eq_iff : Cond.holds .eq a b = true ↔ (a.toNat : Int) = b.toNat :=
  decide_eq_true_iff.trans (BitVec.toNat_inj.symm.trans Int.natCast_inj.symm)

theorem Cond.holds_ne_iff : Cond.holds .ne a b = true ↔ (a.toNat : Int) ≠ b.toNat :=
  decide_eq_true_iff.trans (BitVec.toNat_inj.symm.trans Int.natCast_inj.symm).not

theorem Cond.holds_leU_iff : Cond.holds .leU a b = true ↔ (a.toNat : Int) ≤ b.toNat :=
  decide_eq_true_iff.trans Int.ofNat_le.symm

theorem Cond.holds_geU_iff : Cond.holds .geU a b = true ↔ (a.toNat : Int) ≥ b.toNat :=
  decide_eq_true_iff.trans Int.ofNat_le.symm

theorem Cond.holds_leS_iff : Cond.holds .leS a b = true ↔ sView 64 a.toNat ≤ sView 64 b.toNat := by
  rw [sView_64, sView_64]
  exact decide_eq_true_iff

theorem Cond.holds_geS_iff : Cond.holds .geS a b = true ↔ sView 64 a.toNat ≥ sView 64 b.toNat := by
  rw [sView_64, sView_64]
  exact decide_eq_true_iff

end Relations

/-! ### The statements -/

/-- Settles O17: JUMP is a branch always taken, each register branch one on its relation of the two registers. -/
theorem jumpAndRegisterBranchResults : Obligations.JumpAndRegisterBranchResults := by
  refine ⟨⟨rfl, rfl, rfl, rfl, rfl, rfl, rfl⟩, fun rA rB offX s hwf => ⟨?_, ?_, ?_, ?_, ?_, ?_, ?_⟩⟩
  · exact branchesTo_of_exec hwf rfl rfl (fun _ => rfl) (iff_of_true rfl trivial)
  · exact branchesTo_of_holds hwf rfl (Cond.holds_eq_iff (s.reg rA) (s.reg rB))
  · exact branchesTo_of_holds hwf rfl (Cond.holds_ne_iff (s.reg rA) (s.reg rB))
  · exact branchesTo_of_holds hwf rfl (Cond.holds_ltU_iff (s.reg rA) (s.reg rB))
  · exact branchesTo_of_holds hwf rfl (Cond.holds_ltS_iff (s.reg rA) (s.reg rB))
  · exact branchesTo_of_holds hwf rfl (Cond.holds_geU_iff (s.reg rA) (s.reg rB))
  · exact branchesTo_of_holds hwf rfl (Cond.holds_geS_iff (s.reg rA) (s.reg rB))

/-- Settles O18: each instruction is a branch on its relation of the register, on the left, and the immediate. -/
theorem immediateBranchResults : Obligations.ImmediateBranchResults := by
  refine ⟨⟨rfl, rfl, rfl, rfl, rfl, rfl, rfl, rfl, rfl, rfl⟩, fun rA immX offY s hwf =>
    ⟨?_, ?_, ?_, ?_, ?_, ?_, ?_, ?_, ?_, ?_⟩⟩
  · exact branchesTo_of_holds hwf rfl (Cond.holds_eq_iff (s.reg rA) immX)
  · exact branchesTo_of_holds hwf rfl (Cond.holds_ne_iff (s.reg rA) immX)
  · exact branchesTo_of_holds hwf rfl (Cond.holds_ltU_iff (s.reg rA) immX)
  · exact branchesTo_of_holds hwf rfl (Cond.holds_leU_iff (s.reg rA) immX)
  · exact branchesTo_of_holds hwf rfl (Cond.holds_geU_iff (s.reg rA) immX)
  · exact branchesTo_of_holds hwf rfl (Cond.holds_gtU_iff (s.reg rA) immX)
  · exact branchesTo_of_holds hwf rfl (Cond.holds_ltS_iff (s.reg rA) immX)
  · exact branchesTo_of_holds hwf rfl (Cond.holds_leS_iff (s.reg rA) immX)
  · exact branchesTo_of_holds hwf rfl (Cond.holds_geS_iff (s.reg rA) immX)
  · exact branchesTo_of_holds hwf rfl (Cond.holds_gtS_iff (s.reg rA) immX)

/-- Settles O19: the call is a branch always taken and the other two are dynamic jumps, from the state with the link
written. The address is taken from the state before that write, so base and link may be one register. -/
theorem callAndDynamicJumpResults : Obligations.CallAndDynamicJumpResults := by
  refine ⟨⟨rfl, rfl, rfl⟩, fun rA rB immX immY offY s hwf => ⟨?_, ?_, ?_⟩⟩
  · exact branchesTo_of_exec hwf rfl (s.setReg_pc rA immX) (s.legalTarget_setReg rA immX) (iff_of_true rfl trivial)
  · rw [← toNat_jumpAddr]
    exact jumpsTo_of_exec rfl rfl rfl
  · rw [← toNat_jumpAddr]
    exact jumpsTo_of_exec rfl (s.setReg_params rA immX) (s.legalJump_setReg rA immX _)

end Sys2Proof.Machine
end

section
/-! PROOFS. The opcode map (30_encoding.md R122, R123): which opcodes it lists, that a row makes instructions of its own
opcode and of its own operands, and from these what the decoder answers. -/

namespace Sys2Proof

/-! ### The opcodes listed -/

theorem opcodeTable_keys : opcodeTable.map Prod.fst = Machine.assignedOpcodes := by decide +kernel

theorem mem_opcodeTable_of_lookup {n : Nat} {row : Row} (h : opcodeTable.lookup n = some row) :
    (n, row) ∈ opcodeTable := by
  obtain ⟨l₁, l₂, hsplit, -⟩ := List.lookup_eq_some_iff.mp h
  simp [hsplit]

theorem lookup_eq_none_iff (n : Nat) : opcodeTable.lookup n = none ↔ n ∉ Machine.assignedOpcodes := by
  rw [List.lookup_eq_none_iff, ← opcodeTable_keys, List.mem_map]
  constructor
  · rintro h ⟨x, hx, rfl⟩
    simpa using h x hx
  · intro h x hx
    simpa using fun hn => h ⟨x, hx, Eq.symm hn⟩

/-! ### The rows -/

/-- Whatever the operands, the row makes an instruction of opcode `n` that holds these operands. -/
def Row.Regular (n : Nat) : Row → Prop
  | .noArguments i => i.opcode = n ∧ i.args = .noArguments
  | .oneImmediate f => ∀ x, (f x).opcode = n ∧ (f x).args = .oneImmediate x
  | .oneRegisterOneExtendedWidthImmediate f =>
    ∀ a x, (f a x).opcode = n ∧ (f a x).args = .oneRegisterOneExtendedWidthImmediate a x
  | .twoImmediates f => ∀ x y, (f x y).opcode = n ∧ (f x y).args = .twoImmediates x y
  | .oneOffset f => ∀ z, (f z).opcode = n ∧ (f z).args = .oneOffset z
  | .oneRegisterOneImmediate f => ∀ a x, (f a x).opcode = n ∧ (f a x).args = .oneRegisterOneImmediate a x
  | .oneRegisterTwoImmediates f =>
    ∀ a x y, (f a x y).opcode = n ∧ (f a x y).args = .oneRegisterTwoImmediates a x y
  | .oneRegisterOneImmediateOneOffset f =>
    ∀ a x z, (f a x z).opcode = n ∧ (f a x z).args = .oneRegisterOneImmediateOneOffset a x z
  | .twoRegisters f => ∀ d a, (f d a).opcode = n ∧ (f d a).args = .twoRegisters d a
  | .twoRegistersOneImmediate f => ∀ a b x, (f a b x).opcode = n ∧ (f a b x).args = .twoRegistersOneImmediate a b x
  | .twoRegistersOneOffset f => ∀ a b z, (f a b z).opcode = n ∧ (f a b z).args = .twoRegistersOneOffset a b z
  | .twoRegistersTwoImmediates f =>
    ∀ a b x y, (f a b x y).opcode = n ∧ (f a b x y).args = .twoRegistersTwoImmediates a b x y
  | .threeRegisters f => ∀ d a b, (f d a b).opcode = n ∧ (f d a b).args = .threeRegisters d a b

theorem opcodeTable_forall_regular : opcodeTable.Forall fun x => x.2.Regular x.1 := by
  repeat' first | intro _ | apply And.intro
  all_goals rfl

theorem Row.regular_of_lookup {n : Nat} {row : Row} (h : opcodeTable.lookup n = some row) : row.Regular n :=
  List.forall_iff_forall_mem.mp opcodeTable_forall_regular _ (mem_opcodeTable_of_lookup h)

/-! ### The immediates read -/

/-- At most 4 bytes sign-extend to a value of 32 bits. -/
theorem toInt_signExtendBytes_bounds {n : Nat} (hn : n ≤ 4) (v : Word) :
    -2 ^ 31 ≤ (signExtendBytes n v).toInt ∧ (signExtendBytes n v).toInt < 2 ^ 31 := by
  have hpow : (2 : Int) ^ (8 * n - 1) ≤ 2 ^ 31 := pow_le_pow_right₀ (by decide) (by omega)
  have hlow := BitVec.le_toInt (v.setWidth (8 * n))
  have hhigh := BitVec.toInt_lt (x := v.setWidth (8 * n))
  rw [signExtendBytes, BitVec.toInt_signExtend_of_le (by omega)]
  omega

theorem immFits_iff (v : Word) : immFits v = true ↔ -2 ^ 31 ≤ v.toInt ∧ v.toInt < 2 ^ 31 := by
  rw [immFits, decide_eq_true_iff]
  refine ⟨fun h => h ▸ toInt_signExtendBytes_bounds (Nat.le_refl 4) v, fun ⟨hlow, hhigh⟩ => ?_⟩
  apply BitVec.eq_of_toInt_eq
  rw [signExtendBytes, BitVec.toInt_signExtend_of_le (by decide), BitVec.toInt_setWidth]
  rw [BitVec.toInt_eq_toNat_bmod] at hlow hhigh ⊢
  rw [← Int.bmod_bmod_of_dvd (show 2 ^ (8 * 4) ∣ 2 ^ 64 by decide)]
  exact Int.bmod_eq_of_le (by omega) (by omega)

theorem immFits_immAt (bs : List Byte) (j n : Nat) : immFits (immAt bs j (min 4 n)) = true :=
  (immFits_iff _).mpr (toInt_signExtendBytes_bounds (Nat.min_le_left 4 n) _)

theorem offFits_offAt (bs : List Byte) (j n : Nat) : offFits (offAt bs j (min 4 n)) = true := by
  have hbounds := toInt_signExtendBytes_bounds (Nat.min_le_left 4 n) (BitVec.ofNat 64 (leValue (bytesAt bs j (min 4 n))))
  rw [offFits, Bool.and_eq_true, decide_eq_true_iff, decide_eq_true_iff]
  exact hbounds

/-! ### What a row decodes to -/

theorem Row.decode_opcode {n : Nat} {row : Row} (h : row.Regular n) (bs : List Byte) (L : Nat) :
    (row.decode bs L).opcode = n := by
  cases row
  case noArguments i => exact h.1
  all_goals exact (h ..).1

/-- The immediates and offsets of a row are read from at most 4 bytes, so they can be encoded. -/
theorem Row.decode_wf {n : Nat} {row : Row} (h : row.Regular n) (bs : List Byte) (L : Nat) :
    (row.decode bs L).wf = true := by
  cases row
  all_goals
    simp only [Row.Regular] at h
    simp only [Row.decode, Instr.wf, h, Args.wf, immFits_immAt, offFits_offAt, Bool.and_self]

/-! ### The decoder -/

theorem decode_of_lookup {op : Byte} {row : Row} (h : opcodeTable.lookup op.toNat = some row) (bs : List Byte)
    (L : Nat) : decode (op :: bs) L = .ok (row.decode (op :: bs) L) := by
  simp only [decode, h]

theorem decode_of_unassigned {op : Byte} (h : op.toNat ∉ Machine.assignedOpcodes) (bs : List Byte) (L : Nat) :
    decode (op :: bs) L = .error (.unassigned op) := by
  simp only [decode, (lookup_eq_none_iff _).mpr h]

theorem lookup_of_assigned {n : Nat} (h : n ∈ Machine.assignedOpcodes) : ∃ row, opcodeTable.lookup n = some row :=
  Option.ne_none_iff_exists'.mp fun hnone => (lookup_eq_none_iff n).mp hnone h

/-- An instruction decoded is made by the row of the first byte. -/
theorem decode_ok {bs : List Byte} {L : Nat} {i : Instr} (h : decode bs L = .ok i) :
    ∃ op rest row, bs = op :: rest ∧ opcodeTable.lookup op.toNat = some row ∧ i = row.decode bs L := by
  cases bs with
  | nil => cases h
  | cons op rest =>
    cases hrow : opcodeTable.lookup op.toNat with
    | none => rw [decode_of_unassigned ((lookup_eq_none_iff _).mp hrow)] at h; cases h
    | some row => rw [decode_of_lookup hrow] at h; exact ⟨op, rest, row, rfl, hrow, (Except.ok.inj h).symm⟩

/-- Settles O25: the table lists the assigned opcodes, and each of its rows makes instructions of its own opcode. -/
theorem assignedOpcodesDecode : Obligations.AssignedOpcodesDecode := by
  refine ⟨rfl, by decide, fun _ => rfl, fun op operands L => ⟨fun h => ?_, fun h => ?_⟩⟩
  · obtain ⟨row, hrow⟩ := lookup_of_assigned h
    exact ⟨_, decode_of_lookup hrow operands L, Row.decode_opcode (Row.regular_of_lookup hrow) _ L⟩
  · exact decode_of_unassigned h operands L

/-- Settles O27: a decoded instruction is made by a row, and a row reads only what can be encoded. -/
theorem decodedIsWellFormed : Obligations.DecodedIsWellFormed := by
  intro bytes L i h
  obtain ⟨op, rest, row, -, hrow, rfl⟩ := decode_ok h
  exact Row.decode_wf (Row.regular_of_lookup hrow) bytes L

/-! ### The decoder at an offset of an image -/

theorem byteAt_drop (bs : List Byte) (i j : Nat) : byteAt (bs.drop i) j = byteAt bs (i + j) := by
  simp [byteAt, List.getD_eq_getElem?_getD]

theorem immAt_drop (bs : List Byte) (i j n : Nat) : immAt (bs.drop i) j n = immAt bs (i + j) n := by
  simp only [immAt, bytesAt, byteAt_drop, Nat.add_assoc]

/-- Inside the code the decoder reads the row of the byte that stands there, from that byte on. -/
theorem decodeAt_of_lookup {p : Image} {i : Nat} {op : Byte} {row : Row} (hop : p.code[i]? = some op)
    (hrow : opcodeTable.lookup op.toNat = some row) :
    decodeAt p i = .ok (row.decode (p.code.drop i) (skip p.mask i)) := by
  obtain ⟨hi, rfl⟩ := List.getElem?_eq_some_iff.mp hop
  rw [decodeAt, List.drop_eq_getElem_cons hi]
  exact decode_of_lookup hrow _ _

theorem decodeAt_past_end {p : Image} {i : Nat} (h : p.code.length ≤ i) : decodeAt p i = .error .unmapped := by
  rw [decodeAt, List.drop_eq_nil_of_le h]
  rfl

theorem decodeAt_of_unassigned {p : Image} {i : Nat} {op : Byte} (hop : p.code[i]? = some op)
    (h : op.toNat ∉ Machine.assignedOpcodes) : decodeAt p i = .error (.unassigned op) := by
  obtain ⟨hi, rfl⟩ := List.getElem?_eq_some_iff.mp hop
  rw [decodeAt, List.drop_eq_getElem_cons hi]
  exact decode_of_unassigned h _ _

theorem decodeAt_of_assigned {p : Image} {i : Nat} {op : Byte} (hop : p.code[i]? = some op)
    (h : op.toNat ∈ Machine.assignedOpcodes) : ∃ j, decodeAt p i = .ok j ∧ j.opcode = op.toNat := by
  obtain ⟨row, hrow⟩ := lookup_of_assigned h
  exact ⟨_, decodeAt_of_lookup hop hrow, Row.decode_opcode (Row.regular_of_lookup hrow) _ _⟩

/-- Settles O28: a row decodes the code from offset `i` on, whose byte `j` is the byte `i + j` of the code. -/
theorem operandLayouts : Obligations.OperandLayouts := by
  intro p i op hop byte imm off L loA hiB lTwo lOne lPair row hrow
  have hdecode := decodeAt_of_lookup hop hrow
  cases row <;> simp only [hdecode, Row.decode, offAt, immAt_drop, byteAt_drop] <;> rfl

/-- Settles O23 by running the decoder. -/
theorem writtenWordsDecode : Obligations.WrittenWordsDecode := by
  refine ⟨?_, ?_, ?_, ?_, ?_, ?_, ?_, ?_, ?_, ?_, ?_, ?_, ?_, ?_⟩ <;> rfl

end Sys2Proof
end

section
/-! PROOFS. Encoding (30_encoding.md R102, R107, R134): the bytes written for a record of operands are read back as that
record, alone and in an image. -/

namespace Sys2Proof

/-! ### Immediates written and read -/

theorem leBytes_succ (n : Nat) (v : Word) : leBytes (n + 1) v = v.setWidth 8 :: leBytes n (v >>> 8) := by
  rw [leBytes, List.range_succ_eq_map, List.map_cons, List.map_map]
  refine congrArg₂ _ (by simp) (List.map_congr_left fun j _ => ?_)
  rw [Function.comp_apply, Nat.mul_succ, Nat.add_comm, BitVec.shiftRight_add]

theorem leValue_leBytes (n : Nat) (v : Word) : leValue (leBytes n v) = v.toNat % 2 ^ (8 * n) := by
  induction n generalizing v with
  | zero => simp [leBytes, leValue, Nat.mod_one]
  | succ n ih =>
    rw [leBytes_succ, leValue, ih, BitVec.toNat_setWidth, BitVec.toNat_ushiftRight, Nat.shiftRight_eq_div_pow,
      Nat.mul_succ, Nat.add_comm (8 * n) 8, pow_add, Nat.mod_mul]
    rfl

theorem signExtendBytes_leBytes {n : Nat} (hn : n ≤ 8) (v : Word) :
    signExtendBytes n (BitVec.ofNat 64 (leValue (leBytes n v))) = signExtendBytes n v := by
  rw [leValue_leBytes, signExtendBytes, signExtendBytes, BitVec.setWidth_ofNat_of_le (by omega)]
  congr 1
  apply BitVec.eq_of_toNat_eq
  simp

theorem bytesAt_append (pre bs rest : List Byte) : bytesAt (pre ++ bs ++ rest) pre.length bs.length = bs := by
  refine List.ext_getElem (bytesAt_length ..) fun j _ hj => ?_
  simp [bytesAt, byteAt, List.getD_eq_getElem?_getD, List.getElem?_append_right, List.getElem?_append_left hj, hj]

/-- The bytes of a value, wherever they stand, are read as the sign extension of that many bytes of it. -/
theorem immAt_leBytes (pre rest : List Byte) {n : Nat} (hn : n ≤ 8) (v : Word) :
    immAt (pre ++ leBytes n v ++ rest) pre.length n = signExtendBytes n v := by
  have hbytes := bytesAt_append pre (leBytes n v) rest
  rw [Machine.leBytes_length] at hbytes
  rw [immAt, hbytes, signExtendBytes_leBytes hn]

theorem signExtendBytes_eight (v : Word) : signExtendBytes 8 v = v := by
  simp [signExtendBytes]

/-! ### The shortest form -/

theorem immLen_le (v : Word) : immLen v ≤ 4 := by
  unfold immLen
  cases hfind : [0, 1, 2, 3].find? fun n => signExtendBytes n v == v with
  | none => exact Nat.le_refl 4
  | some n =>
    have hmem := List.mem_of_find?_eq_some hfind
    simp at hmem ⊢
    omega

/-- Where 4 bytes can stand for the value, the shortest form stands for it. -/
theorem signExtendBytes_immLen {v : Word} (h : immFits v = true) : signExtendBytes (immLen v) v = v := by
  unfold immLen
  cases hfind : [0, 1, 2, 3].find? fun n => signExtendBytes n v == v with
  | none => exact of_decide_eq_true h
  | some n => simpa using List.find?_some hfind

@[simp] theorem encodeImm_length (v : Word) : (encodeImm v).length = immLen v := Machine.leBytes_length _ v

theorem immAt_encodeImm (pre rest : List Byte) {v : Word} (h : immFits v = true) :
    immAt (pre ++ encodeImm v ++ rest) pre.length (immLen v) = v := by
  have hlen := immLen_le v
  rw [encodeImm, immAt_leBytes pre rest (by omega), signExtendBytes_immLen h]

theorem offFits_iff (z : Int) : offFits z = true ↔ -2 ^ 31 ≤ z ∧ z < 2 ^ 31 := by
  rw [offFits, Bool.and_eq_true, decide_eq_true_iff, decide_eq_true_iff]
  rfl

theorem toInt_ofInt_of_offFits {z : Int} (h : offFits z = true) : (BitVec.ofInt 64 z).toInt = z := by
  obtain ⟨hlow, hhigh⟩ := (offFits_iff z).mp h
  rw [BitVec.toInt_ofInt]
  exact Int.bmod_eq_of_le (by omega) (by omega)

theorem immFits_ofInt {z : Int} (h : offFits z = true) : immFits (BitVec.ofInt 64 z) = true := by
  rw [immFits_iff, toInt_ofInt_of_offFits h, ← offFits_iff]
  exact h

/-! ### Nibbles -/

theorem toNat_nibbles {lo hi : Nat} (hlo : lo < 16) (hhi : hi < 16) : (nibbles lo hi).toNat = lo + 16 * hi := by
  rw [nibbles, BitVec.toNat_ofNat]
  omega

theorem regOf_reg (r : Reg) : regOf r = r := Fin.ext (by rw [regOf_val]; omega)

theorem loReg_nibbles (r : Reg) {hi : Nat} (hhi : hi < 16) : loReg (nibbles r hi) = r := by
  rw [loReg, toNat_nibbles (by omega) hhi, Nat.add_mul_mod_self_left, Nat.mod_eq_of_lt (by omega), regOf_reg]

theorem hiReg_nibbles (a b : Reg) : hiReg (nibbles a b) = b := by
  rw [hiReg, toNat_nibbles (by omega) (by omega), show (a.val + 16 * b.val) / 16 = b.val by omega, regOf_reg]

/-- A length in the low nibble, as the shapes of 30_encoding.md R112 and R120 read it. -/
theorem low_length_nibbles (x : Word) : min 4 ((nibbles (immLen x) 0).toNat % 8) = immLen x := by
  have hlen := immLen_le x
  rw [toNat_nibbles (by omega) (by omega)]
  omega

/-- A length in the high nibble, as the shapes of 30_encoding.md R115 and R116 read it. -/
theorem high_length_nibbles (a : Reg) (x : Word) : min 4 ((nibbles a (immLen x)).toNat / 16 % 8) = immLen x := by
  have hlen := immLen_le x
  rw [toNat_nibbles (by omega) (by omega)]
  omega

/-! ### Immediates at the offsets of the layouts -/

section Layouts
variable (op b c : Byte) (rest : List Byte) {x y : Word}

theorem immAt_one_encodeImm (hx : immFits x = true) : immAt (op :: (encodeImm x ++ rest)) 1 (immLen x) = x :=
  immAt_encodeImm [op] rest hx

theorem immAt_two_encodeImm (hx : immFits x = true) : immAt (op :: b :: (encodeImm x ++ rest)) 2 (immLen x) = x :=
  immAt_encodeImm [op, b] rest hx

theorem immAt_two_encodeImm_pair (hx : immFits x = true) (hy : immFits y = true) :
    immAt (op :: b :: (encodeImm x ++ (encodeImm y ++ rest))) 2 (immLen x) = x ∧
      immAt (op :: b :: (encodeImm x ++ (encodeImm y ++ rest))) (2 + immLen x) (immLen y) = y := by
  have hsecond := immAt_encodeImm ([op, b] ++ encodeImm x) rest hy
  rw [List.length_append, encodeImm_length, List.append_assoc, List.append_assoc] at hsecond
  exact ⟨immAt_two_encodeImm op b _ hx, hsecond⟩

theorem immAt_three_encodeImm_pair (hx : immFits x = true) (hy : immFits y = true) :
    immAt (op :: b :: c :: (encodeImm x ++ (encodeImm y ++ rest))) 3 (immLen x) = x ∧
      immAt (op :: b :: c :: (encodeImm x ++ (encodeImm y ++ rest))) (3 + immLen x) (immLen y) = y := by
  have hsecond := immAt_encodeImm ([op, b, c] ++ encodeImm x) rest hy
  rw [List.length_append, encodeImm_length, List.append_assoc, List.append_assoc] at hsecond
  exact ⟨immAt_encodeImm [op, b, c] _ hx, hsecond⟩

end Layouts

/-- The second immediate takes the operand bytes that the register byte and the first immediate leave. -/
theorem second_length (x y : Word) : min 4 (immLen x + immLen y + 1 - immLen x - 1) = immLen y := by
  have hlen := immLen_le y
  omega

/-- The same after two bytes before the first immediate. -/
theorem second_length_of_two (x y : Word) : min 4 (immLen x + immLen y + 1 + 1 - immLen x - 2) = immLen y := by
  have hlen := immLen_le y
  omega

/-! ### A record of operands written and read -/

/-- The row of an instruction's shape reads back the record its encoder wrote. -/
theorem Row.decode_encode {i : Instr} {row : Row} {args : Args} (h : row.Makes i args) (hwf : args.wf = true)
    (op : Byte) (rest : List Byte) : row.decode (op :: (args.encode ++ rest)) args.encode.length = i := by
  cases row <;> cases args <;> try exact False.elim h
  all_goals
    subst h
    simp only [Args.wf, Bool.and_eq_true] at hwf
  case noArguments.noArguments => rfl
  case oneImmediate.oneImmediate f x =>
    simp [Row.decode, Args.encode, immLen_le, immAt_one_encodeImm op rest hwf]
  case oneRegisterOneExtendedWidthImmediate.oneRegisterOneExtendedWidthImmediate f a x =>
    have hx : immAt (op :: nibbles a 0 :: (leBytes 8 x ++ rest)) 2 8 = x :=
      (immAt_leBytes [op, nibbles a 0] rest (Nat.le_refl 8) x).trans (signExtendBytes_eight x)
    simp [Row.decode, Args.encode, byteAt, loReg_nibbles, hx]
  case twoImmediates.twoImmediates f x y =>
    obtain ⟨hx, hy⟩ := immAt_two_encodeImm_pair op (nibbles (immLen x) 0) rest hwf.1 hwf.2
    simp [Row.decode, Args.encode, byteAt, low_length_nibbles, second_length, hx, hy]
  case oneOffset.oneOffset f z =>
    have hz := immAt_one_encodeImm op rest (immFits_ofInt hwf)
    simp [Row.decode, Args.encode, offAt, encodeOff, immLen_le, hz, toInt_ofInt_of_offFits hwf]
  case oneRegisterOneImmediate.oneRegisterOneImmediate f a x =>
    have hx := immAt_two_encodeImm op (nibbles a 0) rest hwf
    simp [Row.decode, Args.encode, byteAt, loReg_nibbles, immLen_le, hx]
  case oneRegisterTwoImmediates.oneRegisterTwoImmediates f a x y =>
    obtain ⟨hx, hy⟩ := immAt_two_encodeImm_pair op (nibbles a (immLen x)) rest hwf.1 hwf.2
    have ha : loReg (nibbles a (immLen x)) = a := loReg_nibbles a (by have := immLen_le x; omega)
    simp [Row.decode, Args.encode, byteAt, ha, high_length_nibbles, second_length, hx, hy]
  case oneRegisterOneImmediateOneOffset.oneRegisterOneImmediateOneOffset f a x z =>
    obtain ⟨hx, hz⟩ := immAt_two_encodeImm_pair op (nibbles a (immLen x)) rest hwf.1 (immFits_ofInt hwf.2)
    have ha : loReg (nibbles a (immLen x)) = a := loReg_nibbles a (by have := immLen_le x; omega)
    simp [Row.decode, Args.encode, byteAt, offAt, encodeOff, ha, high_length_nibbles, second_length, hx, hz,
      toInt_ofInt_of_offFits hwf.2]
  case twoRegisters.twoRegisters f d a =>
    have hd : loReg (nibbles d a) = d := loReg_nibbles d (by omega)
    simp [Row.decode, Args.encode, byteAt, hd, hiReg_nibbles]
  case twoRegistersOneImmediate.twoRegistersOneImmediate f a b x =>
    have hx := immAt_two_encodeImm op (nibbles a b) rest hwf
    have ha : loReg (nibbles a b) = a := loReg_nibbles a (by omega)
    simp [Row.decode, Args.encode, byteAt, ha, hiReg_nibbles, immLen_le, hx]
  case twoRegistersOneOffset.twoRegistersOneOffset f a b z =>
    have hz := immAt_two_encodeImm op (nibbles a b) rest (immFits_ofInt hwf)
    have ha : loReg (nibbles a b) = a := loReg_nibbles a (by omega)
    simp [Row.decode, Args.encode, byteAt, offAt, encodeOff, ha, hiReg_nibbles, immLen_le, hz,
      toInt_ofInt_of_offFits hwf]
  case twoRegistersTwoImmediates.twoRegistersTwoImmediates f a b x y =>
    obtain ⟨hx, hy⟩ := immAt_three_encodeImm_pair op (nibbles a b) (nibbles (immLen x) 0) rest hwf.1 hwf.2
    have ha : loReg (nibbles a b) = a := loReg_nibbles a (by omega)
    simp [Row.decode, Args.encode, byteAt, ha, hiReg_nibbles, low_length_nibbles, second_length_of_two, hx, hy]
  case threeRegisters.threeRegisters f d a b =>
    have ha : loReg (nibbles a b) = a := loReg_nibbles a (by omega)
    have hd : regOf (nibbles d 0).toNat = d := by rw [toNat_nibbles (by omega) (by omega)]; exact regOf_reg d
    simp [Row.decode, Args.encode, byteAt, ha, hd, hiReg_nibbles]

/-- The opcode map's row for an instruction makes it of its own operands. -/
theorem tableRow_statement : ∀ i : Instr, Laws.TableRow.Statement i
  | .trap => Laws.TableRow.trap | .fallthrough => Laws.TableRow.fallthrough | .ecalli .. => Laws.TableRow.ecalli ..
  | .loadImm64 .. => Laws.TableRow.loadImm64 .. | .storeImmU8 .. => Laws.TableRow.storeImmU8 ..
  | .storeImmU16 .. => Laws.TableRow.storeImmU16 .. | .storeImmU32 .. => Laws.TableRow.storeImmU32 ..
  | .storeImmU64 .. => Laws.TableRow.storeImmU64 .. | .jump .. => Laws.TableRow.jump ..
  | .jumpInd .. => Laws.TableRow.jumpInd .. | .loadImm .. => Laws.TableRow.loadImm ..
  | .loadU8 .. => Laws.TableRow.loadU8 .. | .loadI8 .. => Laws.TableRow.loadI8 ..
  | .loadU16 .. => Laws.TableRow.loadU16 .. | .loadI16 .. => Laws.TableRow.loadI16 ..
  | .loadU32 .. => Laws.TableRow.loadU32 .. | .loadI32 .. => Laws.TableRow.loadI32 ..
  | .loadU64 .. => Laws.TableRow.loadU64 .. | .storeU8 .. => Laws.TableRow.storeU8 ..
  | .storeU16 .. => Laws.TableRow.storeU16 .. | .storeU32 .. => Laws.TableRow.storeU32 ..
  | .storeU64 .. => Laws.TableRow.storeU64 .. | .storeImmIndU8 .. => Laws.TableRow.storeImmIndU8 ..
  | .storeImmIndU16 .. => Laws.TableRow.storeImmIndU16 .. | .storeImmIndU32 .. => Laws.TableRow.storeImmIndU32 ..
  | .storeImmIndU64 .. => Laws.TableRow.storeImmIndU64 .. | .loadImmJump .. => Laws.TableRow.loadImmJump ..
  | .branchEqImm .. => Laws.TableRow.branchEqImm .. | .branchNeImm .. => Laws.TableRow.branchNeImm ..
  | .branchLtUImm .. => Laws.TableRow.branchLtUImm .. | .branchLeUImm .. => Laws.TableRow.branchLeUImm ..
  | .branchGeUImm .. => Laws.TableRow.branchGeUImm .. | .branchGtUImm .. => Laws.TableRow.branchGtUImm ..
  | .branchLtSImm .. => Laws.TableRow.branchLtSImm .. | .branchLeSImm .. => Laws.TableRow.branchLeSImm ..
  | .branchGeSImm .. => Laws.TableRow.branchGeSImm .. | .branchGtSImm .. => Laws.TableRow.branchGtSImm ..
  | .moveReg .. => Laws.TableRow.moveReg .. | .countSetBits64 .. => Laws.TableRow.countSetBits64 ..
  | .countSetBits32 .. => Laws.TableRow.countSetBits32 ..
  | .leadingZeroBits64 .. => Laws.TableRow.leadingZeroBits64 ..
  | .leadingZeroBits32 .. => Laws.TableRow.leadingZeroBits32 ..
  | .trailingZeroBits64 .. => Laws.TableRow.trailingZeroBits64 ..
  | .trailingZeroBits32 .. => Laws.TableRow.trailingZeroBits32 .. | .signExtend8 .. => Laws.TableRow.signExtend8 ..
  | .signExtend16 .. => Laws.TableRow.signExtend16 .. | .zeroExtend16 .. => Laws.TableRow.zeroExtend16 ..
  | .reverseBytes .. => Laws.TableRow.reverseBytes .. | .storeIndU8 .. => Laws.TableRow.storeIndU8 ..
  | .storeIndU16 .. => Laws.TableRow.storeIndU16 .. | .storeIndU32 .. => Laws.TableRow.storeIndU32 ..
  | .storeIndU64 .. => Laws.TableRow.storeIndU64 .. | .loadIndU8 .. => Laws.TableRow.loadIndU8 ..
  | .loadIndI8 .. => Laws.TableRow.loadIndI8 .. | .loadIndU16 .. => Laws.TableRow.loadIndU16 ..
  | .loadIndI16 .. => Laws.TableRow.loadIndI16 .. | .loadIndU32 .. => Laws.TableRow.loadIndU32 ..
  | .loadIndI32 .. => Laws.TableRow.loadIndI32 .. | .loadIndU64 .. => Laws.TableRow.loadIndU64 ..
  | .addImm32 .. => Laws.TableRow.addImm32 .. | .andImm .. => Laws.TableRow.andImm ..
  | .xorImm .. => Laws.TableRow.xorImm .. | .orImm .. => Laws.TableRow.orImm ..
  | .mulImm32 .. => Laws.TableRow.mulImm32 .. | .setLtUImm .. => Laws.TableRow.setLtUImm ..
  | .setLtSImm .. => Laws.TableRow.setLtSImm .. | .shloLImm32 .. => Laws.TableRow.shloLImm32 ..
  | .shloRImm32 .. => Laws.TableRow.shloRImm32 .. | .sharRImm32 .. => Laws.TableRow.sharRImm32 ..
  | .negAddImm32 .. => Laws.TableRow.negAddImm32 .. | .setGtUImm .. => Laws.TableRow.setGtUImm ..
  | .setGtSImm .. => Laws.TableRow.setGtSImm .. | .shloLImmAlt32 .. => Laws.TableRow.shloLImmAlt32 ..
  | .shloRImmAlt32 .. => Laws.TableRow.shloRImmAlt32 .. | .sharRImmAlt32 .. => Laws.TableRow.sharRImmAlt32 ..
  | .cmovIzImm .. => Laws.TableRow.cmovIzImm .. | .cmovNzImm .. => Laws.TableRow.cmovNzImm ..
  | .addImm64 .. => Laws.TableRow.addImm64 .. | .mulImm64 .. => Laws.TableRow.mulImm64 ..
  | .shloLImm64 .. => Laws.TableRow.shloLImm64 .. | .shloRImm64 .. => Laws.TableRow.shloRImm64 ..
  | .sharRImm64 .. => Laws.TableRow.sharRImm64 .. | .negAddImm64 .. => Laws.TableRow.negAddImm64 ..
  | .shloLImmAlt64 .. => Laws.TableRow.shloLImmAlt64 .. | .shloRImmAlt64 .. => Laws.TableRow.shloRImmAlt64 ..
  | .sharRImmAlt64 .. => Laws.TableRow.sharRImmAlt64 .. | .rotR64Imm .. => Laws.TableRow.rotR64Imm ..
  | .rotR64ImmAlt .. => Laws.TableRow.rotR64ImmAlt .. | .rotR32Imm .. => Laws.TableRow.rotR32Imm ..
  | .rotR32ImmAlt .. => Laws.TableRow.rotR32ImmAlt .. | .branchEq .. => Laws.TableRow.branchEq ..
  | .branchNe .. => Laws.TableRow.branchNe .. | .branchLtU .. => Laws.TableRow.branchLtU ..
  | .branchLtS .. => Laws.TableRow.branchLtS .. | .branchGeU .. => Laws.TableRow.branchGeU ..
  | .branchGeS .. => Laws.TableRow.branchGeS .. | .loadImmJumpInd .. => Laws.TableRow.loadImmJumpInd ..
  | .add32 .. => Laws.TableRow.add32 .. | .sub32 .. => Laws.TableRow.sub32 .. | .mul32 .. => Laws.TableRow.mul32 ..
  | .divU32 .. => Laws.TableRow.divU32 .. | .divS32 .. => Laws.TableRow.divS32 ..
  | .remU32 .. => Laws.TableRow.remU32 .. | .remS32 .. => Laws.TableRow.remS32 ..
  | .shloL32 .. => Laws.TableRow.shloL32 .. | .shloR32 .. => Laws.TableRow.shloR32 ..
  | .sharR32 .. => Laws.TableRow.sharR32 .. | .add64 .. => Laws.TableRow.add64 ..
  | .sub64 .. => Laws.TableRow.sub64 .. | .mul64 .. => Laws.TableRow.mul64 .. | .divU64 .. => Laws.TableRow.divU64 ..
  | .divS64 .. => Laws.TableRow.divS64 .. | .remU64 .. => Laws.TableRow.remU64 ..
  | .remS64 .. => Laws.TableRow.remS64 .. | .shloL64 .. => Laws.TableRow.shloL64 ..
  | .shloR64 .. => Laws.TableRow.shloR64 .. | .sharR64 .. => Laws.TableRow.sharR64 ..
  | .and .. => Laws.TableRow.and .. | .xor .. => Laws.TableRow.xor .. | .or .. => Laws.TableRow.or ..
  | .mulUpperSS .. => Laws.TableRow.mulUpperSS .. | .mulUpperUU .. => Laws.TableRow.mulUpperUU ..
  | .mulUpperSU .. => Laws.TableRow.mulUpperSU .. | .setLtU .. => Laws.TableRow.setLtU ..
  | .setLtS .. => Laws.TableRow.setLtS .. | .cmovIz .. => Laws.TableRow.cmovIz ..
  | .cmovNz .. => Laws.TableRow.cmovNz .. | .rotL64 .. => Laws.TableRow.rotL64 ..
  | .rotL32 .. => Laws.TableRow.rotL32 .. | .rotR64 .. => Laws.TableRow.rotR64 ..
  | .rotR32 .. => Laws.TableRow.rotR32 .. | .andInv .. => Laws.TableRow.andInv ..
  | .orInv .. => Laws.TableRow.orInv .. | .xnor .. => Laws.TableRow.xnor .. | .max .. => Laws.TableRow.max ..
  | .maxU .. => Laws.TableRow.maxU .. | .min .. => Laws.TableRow.min .. | .minU .. => Laws.TableRow.minU ..

theorem toNat_ofNat_opcode (i : Instr) : (BitVec.ofNat 8 i.opcode).toNat = i.opcode := by
  have hlt := (tableRow_statement i).1
  rw [BitVec.toNat_ofNat, Nat.mod_eq_of_lt hlt]

/-- Settles O21: the opcode byte finds the instruction's row, which reads back the operands. -/
theorem encodeThenDecode : Obligations.EncodeThenDecode := by
  intro i hwf rest
  obtain ⟨-, row, hrow, hmakes⟩ := tableRow_statement i
  rw [← toNat_ofNat_opcode i] at hrow
  calc decode (encode i ++ rest) ((encode i).length - 1)
      = .ok (row.decode (BitVec.ofNat 8 i.opcode :: (i.args.encode ++ rest)) i.args.encode.length) :=
        decode_of_lookup hrow _ _
    _ = .ok i := by rw [Row.decode_encode hmakes hwf]

/-! ### An encoded instruction in an image -/

theorem Args.encode_length_le (args : Args) : args.encode.length ≤ 24 := by
  cases args
  all_goals
    simp only [Args.encode, encodeOff, List.length_cons, List.length_append, List.length_nil, encodeImm_length,
      Machine.leBytes_length]
    grind [immLen_le]

/-- From the first byte after a marked offset on, the unmarked bytes are counted up to the next mark or the end. -/
theorem unmarkedFrom_replicate (before : List Bool) {after : List Bool} (hafter : after.head?.getD true = true)
    {n fuel : Nat} (hn : n ≤ fuel) :
    unmarkedFrom (before ++ (List.replicate n false ++ after)) before.length fuel = n := by
  induction n generalizing before fuel with
  | zero =>
    cases fuel with
    | zero => rfl
    | succ fuel =>
      have hmark : (before ++ after).getD before.length true = true := by
        rw [List.getD_append_right _ _ _ _ (Nat.le_refl _), Nat.sub_self]
        cases after with
        | nil => rfl
        | cons b after => simpa using hafter
      rw [List.replicate_zero, List.nil_append, unmarkedFrom, hmark]
      rfl
  | succ n ih =>
    obtain ⟨fuel, rfl⟩ : ∃ f, fuel = f + 1 := ⟨fuel - 1, by omega⟩
    have hrest := ih (before ++ [false]) (fuel := fuel) (by omega)
    simp only [List.append_assoc, List.length_append, List.length_singleton, List.singleton_append] at hrest
    simp [unmarkedFrom, List.replicate_succ, hrest, Nat.add_comm]

/-- The length rule gives an instruction marked at its first byte only its own length. -/
theorem skip_placed (marksBefore : List Bool) {marksAfter : List Bool} (hafter : marksAfter.head?.getD true = true)
    {n : Nat} (hn : n ≤ 24) :
    skip (marksBefore ++ (true :: List.replicate n false) ++ marksAfter) marksBefore.length = n := by
  have hcount := unmarkedFrom_replicate (marksBefore ++ [true]) hafter hn
  simpa [skip] using hcount

/-- Settles O22: the length rule gives the encoding's length, and the code from the offset on starts with the
encoding. -/
theorem encodedInstructionInImage : Obligations.EncodedInstructionInImage := by
  intro i before after marksBefore marksAfter hwf hmarks hafter p
  have hlen : (encode i).length - 1 ≤ 24 := i.args.encode_length_le
  have hskip : skip p.mask before.length = (encode i).length - 1 := hmarks ▸ skip_placed marksBefore hafter hlen
  have hcode : p.code.drop before.length = encode i ++ after := by simp [p]
  refine ⟨?_, ?_⟩
  · rw [decodeAt, hskip, hcode]
    exact encodeThenDecode i hwf after
  · rw [hskip]
    simp [encode, Nat.add_comm]

end Sys2Proof
end

section
/-! PROOFS. The step by cases (60_exceptions.md R341): Uninitialized, terminal, suspended, and from status OK by what
stands at `pc` and whether the gas covers its cost. -/

namespace Sys2Proof.Machine

/-! ### The three system instructions -/

/-- Settles O20: each clause is the meaning of the instruction as the model gives it. -/
theorem systemResults : Obligations.SystemResults :=
  ⟨⟨rfl, rfl, rfl⟩, rfl, rfl, rfl, fun _ _ => ⟨rfl, rfl, rfl⟩⟩

/-! ### The cost of the step -/

/-- The cost the step charges is that of what stands at `pc`, in the words of the statements. -/
theorem fetchCost_eq_costAt (s : State) : fetchCost s = s.costAt s.pc := by
  unfold fetchCost fetch State.costAt
  cases hop : s.image.code[s.pc.toNat]? with
  | none => simp only [decodeAt_past_end (List.getElem?_eq_none_iff.mp hop), Instr.opcode]
  | some op =>
    by_cases hassigned : op.toNat ∈ assignedOpcodes
    · obtain ⟨i, hi, hopcode⟩ := decodeAt_of_assigned hop hassigned
      simp only [hi, hopcode, if_pos hassigned]
    · simp only [decodeAt_of_unassigned hop hassigned, if_neg hassigned, Instr.opcode]

theorem fetchCost_of_ok {s : State} {i : Instr} (h : fetch s = .ok i) :
    fetchCost s = s.params.gasCost i.opcode := by simp only [fetchCost, h]

theorem fetchCost_of_error {s : State} {e : DecodeError} (h : fetch s = .error e) :
    fetchCost s = s.params.gasCost 0 := by simp only [fetchCost, h, Instr.opcode]

/-! ### The step, by status -/

theorem step_uninitialized {s : State} (h : s.life = .uninitialized) : step s = .refused .uninitialized := by
  simp [step, nextStep, h]

theorem step_of_terminal {s : State} (h : s.life = .initialized) (ht : s.status.terminal = true) :
    step s = .next s := by
  have hresume := resume_of_terminal ht
  obtain ⟨hl, -⟩ | ⟨-, -, -, hstep⟩ | ⟨-, hok, -⟩ := nextStep_cases exec s
  · cases h.symm.trans hl
  · exact hstep
  · rw [hresume] at hok
    simp [hok, Status.terminal] at ht

theorem step_of_ok {s : State} (h : s.life = .initialized) (hs : s.status = .ok) : step s = cycle exec s := by
  have hresume : resume s = s := resume_of_not_host fun i => by simp [hs]
  simp [step, nextStep, h, hresume, hs]

theorem step_of_host {s : State} {c : Word} (h : s.life = .initialized) (hs : s.status = .host c) :
    step s = step { s with pc := s.resumePc, status := .ok } := by
  rw [step_of_ok (s := { s with pc := s.resumePc, status := .ok }) h rfl, ← resume_of_host hs]
  simp [step, nextStep, h, resume_of_host hs]

/-! ### The step from status OK, by gas -/

section FromOk
variable {s : State} (hlife : s.life = .initialized) (hok : s.status = .ok)
include hlife hok

theorem step_oog (h : s.gas.toInt < fetchCost s) : step s = .next (s.stopped .oog) := by
  rw [step_of_ok hlife hok]
  obtain ⟨-, hoog⟩ | ⟨g, hpaid, -⟩ := cycle_cases exec s hok
  · exact hoog
  · omega

/-- Where the gas covers the cost, the step is what follows a paid fetch. -/
theorem step_paid (h : (fetchCost s : Int) ≤ s.gas.toInt) :
    ∃ g : Gas, g.toInt = s.gas.toInt - fetchCost s ∧ step s = execFetched exec (fetch s) { s with gas := g } := by
  rw [step_of_ok hlife hok, cycle]
  obtain ⟨hpoor, -⟩ | ⟨-, g, hg, hcharge⟩ := charge_cases (fetchCost s) s
  · omega
  · exact ⟨g, hg, by simp [hcharge, hok]⟩

theorem step_of_fetch_ok {i : Instr} (hi : fetch s = .ok i) (h : (s.params.gasCost i.opcode : Int) ≤ s.gas.toInt) :
    ∃ g : Gas, g.toInt = s.gas.toInt - s.params.gasCost i.opcode ∧ step s = exec i { s with gas := g } := by
  have hpaid := step_paid hlife hok (by rwa [fetchCost_of_ok hi])
  rwa [fetchCost_of_ok hi, hi] at hpaid

theorem step_of_fetch_error {e : DecodeError} (he : fetch s = .error e)
    (h : (s.params.gasCost 0 : Int) ≤ s.gas.toInt) :
    ∃ g : Gas, g.toInt = s.gas.toInt - s.params.gasCost 0 ∧
      step s = execFetched exec (.error e) { s with gas := g } := by
  have hpaid := step_paid hlife hok (by rwa [fetchCost_of_error he])
  rwa [fetchCost_of_error he, he] at hpaid

end FromOk

/-- Settles O35: a paid fetch that decodes is executed. -/
theorem stepRunsDecodedInstruction : Obligations.StepRunsDecodedInstruction :=
  fun _ _ hlife hok hdecode hgas => step_of_fetch_ok hlife hok hdecode hgas

/-- Settles O36: the suspended step is the step of the resumed state, which is in status OK. -/
theorem resumeAfterHostCall : Obligations.ResumeAfterHostCall := by
  intro s c hlife hhost
  refine ⟨step_of_host hlife hhost, fun i hdecode hgas => ?_⟩
  rw [step_of_host hlife hhost]
  exact step_of_fetch_ok (s := { s with pc := s.resumePc, status := .ok }) hlife rfl hdecode hgas

/-- Settles O39: past the end no opcode is found, and a paid fetch that finds none is FAULT. -/
theorem fetchPastEndFaults : Obligations.FetchPastEndFaults :=
  fun _ hlife hok hpc hgas => step_of_fetch_error hlife hok (decodeAt_past_end hpc) hgas

/-- Settles O40: a paid fetch of an unassigned opcode is PANIC. -/
theorem unassignedOpcodePanics : Obligations.UnassignedOpcodePanics :=
  ⟨by decide, fun _ _ hlife hok hop hunassigned hgas =>
    step_of_fetch_error hlife hok (decodeAt_of_unassigned hop hunassigned) hgas⟩

/-- Settles O41: the charge comes before the fetched byte is looked at again. -/
theorem outOfGasWinsOverEverything : Obligations.OutOfGasWinsOverEverything := by
  intro s hlife hok hgas
  rw [← fetchCost_eq_costAt] at hgas
  exact step_oog hlife hok hgas

/-- Settles O38: the two cases of the charge; no cost is below 0, so a negative gas is below any cost. -/
theorem gasCharge : Obligations.GasCharge := by
  refine ⟨fun s cost => ?_, fun s hlife hok hneg => step_oog hlife hok (by omega), fun op => rfl⟩
  obtain ⟨hpoor, hcharge⟩ | ⟨hpaid, g, hg, hcharge⟩ := charge_cases cost s
  · exact ⟨fun _ => hcharge, fun h => by omega⟩
  · exact ⟨fun h => by omega, fun _ => ⟨g, hg, hcharge⟩⟩

end Sys2Proof.Machine
end

section
/-! PROOFS. What every step keeps: the program, the page states, the heap values, the parameters (10_state.md R33, R34,
20_memory.md R63), and the invariant of the machine. -/

namespace Sys2Proof.Machine

/-! ### The frame of every step -/

/-- What no step writes. -/
structure State.SameProgram (s t : State) : Prop where
  image : t.image = s.image
  blocks : t.blocks = s.blocks
  params : t.params = s.params
  life : t.life = s.life
  pages : t.mem.pages = s.mem.pages
  heap : t.mem.heapStart = s.mem.heapStart ∧ t.mem.heapEnd = s.mem.heapEnd ∧ t.mem.sbrkIndex = s.mem.sbrkIndex

theorem State.SameProgram.refl (s : State) : s.SameProgram s := ⟨rfl, rfl, rfl, rfl, rfl, rfl, rfl, rfl⟩

/-- Only a store writes the memory, and it changes neither a page state nor a heap value. -/
theorem ExecStep.sameProgram {i : Instr} {s t : State} (h : ExecStep i s t) : s.SameProgram t := by
  cases h
  case write_mem a n v m hm => exact ⟨rfl, rfl, rfl, rfl, Memory.write_pages hm, Memory.write_heap hm⟩
  all_goals exact ⟨rfl, rfl, rfl, rfl, rfl, rfl, rfl, rfl⟩

theorem StepFrom.sameProgram {r t : State} (h : StepFrom r t) : r.SameProgram t := by
  cases h
  case run g i _ _ _ ht =>
    have hexec := (exec_next ht).sameProgram
    exact ⟨hexec.image, hexec.blocks, hexec.params, hexec.life, hexec.pages, hexec.heap⟩
  all_goals exact ⟨rfl, rfl, rfl, rfl, rfl, rfl, rfl, rfl⟩

theorem step_sameProgram {s t : State} (h : step s = .next t) : s.SameProgram t := by
  obtain ⟨-, ⟨-, rfl⟩ | ⟨-, -, hstep⟩⟩ := step_next h
  · exact State.SameProgram.refl t
  · have hframe := hstep.sameProgram
    constructor
    case image => rw [hframe.image, resume_image]
    case blocks => rw [hframe.blocks, resume_blocks]
    case params => rw [hframe.params, resume_params]
    case life => rw [hframe.life, resume_life]
    case pages => rw [hframe.pages, resume_mem]
    case heap => simpa only [resume_mem] using hframe.heap

/-- Settles O45: the frame of every step. -/
theorem stepKeepsProgramAndPageStates : Obligations.StepKeepsProgramAndPageStates := by
  intro s t h
  have hframe := step_sameProgram h
  obtain ⟨hstart, hend, hindex⟩ := hframe.heap
  refine ⟨hframe.image, hframe.blocks, fun p => ?_, hstart, hend, hindex, hframe.params, hframe.life⟩
  rw [Memory.pageState, Memory.pageState, hframe.pages]

/-! ### The invariant -/

theorem ExecStep.mem_wf {i : Instr} {s t : State} (h : ExecStep i s t) (hm : s.mem.wf) : t.mem.wf := by
  cases h
  case write_mem a n v m hwrite => exact Memory.write_wf hm hwrite
  all_goals exact hm

theorem StepFrom.mem_wf {r t : State} (h : StepFrom r t) (hm : r.mem.wf) : t.mem.wf := by
  cases h
  case run g i _ _ _ ht => exact (exec_next ht).mem_wf hm
  all_goals exact hm

/-- An instruction leaves the status OK, stops with PANIC or HALT, or suspends with the resume offset recorded. -/
theorem ExecStep.statusInv {i : Instr} {s t : State} (h : ExecStep i s t) (hok : s.status = .ok) : t.StatusInv := by
  have of_ok : ∀ {u : State}, u.status = .ok → u.StatusInv := fun hu => by simp [State.StatusInv, hu]
  have of_stop : ∀ {u : State} {st : Status}, st = .panic ∨ st = .halt → u.status = st → u.StatusInv := by
    rintro u st (rfl | rfl) hu <;> simp [State.StatusInv, hu]
  cases h
  case advance | write | write_mem | jump | call => exact of_ok hok
  case stop st hst => exact of_stop hst rfl
  case call_stop r v st _ hst => exact of_stop hst rfl
  case host c _ => exact rfl

theorem StepFrom.statusInv {r t : State} (h : StepFrom r t) (hok : r.status = .ok) : t.StatusInv := by
  cases h
  case oog => trivial
  case fetch_fault g _ _ hfetch => exact ⟨rfl, fetch_unmapped hfetch⟩
  case unassigned => trivial
  case run g i _ _ _ ht => exact (exec_next ht).statusInv hok

/-- Settles O44: the frame keeps the image, its map and the alignment; the memory and the status are kept by each way
of `StepFrom`. -/
theorem stepKeepsInvariant : Obligations.StepKeepsInvariant := by
  intro s t hinv h
  have hframe := step_sameProgram h
  obtain ⟨-, ⟨-, rfl⟩ | ⟨-, hok, hstep⟩⟩ := step_next h
  · exact hinv
  · constructor
    case mem => exact hstep.mem_wf (by rw [resume_mem]; exact hinv.mem)
    case image => rw [State.ImageInv, hframe.image, hframe.blocks]; exact hinv.image
    case align => rw [hframe.params]; exact hinv.align
    case status => exact hstep.statusInv hok

/-- Settles O43: the empty memory and the empty image have the required forms. -/
theorem invariantAtReset : Obligations.InvariantAtReset :=
  ⟨reset_memory_wf, ⟨by decide, rfl⟩, by decide, trivial⟩

/-! ### Where control goes -/

/-- A place control may jump to, in the words of the statement of control-flow integrity. -/
theorem State.Lands.blockStart {s : State} (hinv : s.ImageInv) {pc : CodeAddr} (h : s.Lands pc) :
    pc.toNat < s.image.code.length ∧ s.image.mask[pc.toNat]? = some true ∧
      (pc = 0 ∨ ∃ n op, s.image.code[n]? = some op ∧ op.toNat ∈ terminatorOpcodes ∧
        s.image.mask[n]? = some true ∧ n + 1 + skip s.image.mask n = pc.toNat) := by
  obtain ⟨o, hcode, hblock, rfl⟩ := h
  have hlen := Image.code_length_le hinv.1
  rw [config_maxCodeLen] at hlen
  have ho : (BitVec.ofNat 32 o).toNat = o := by rw [BitVec.toNat_ofNat, Nat.mod_eq_of_lt (by omega)]
  rw [State.blockAt, hinv.2, blockMap_getD_iff, isBlockStart_iff hcode] at hblock
  obtain ⟨-, hmask, hstart⟩ := hblock
  rw [ho]
  refine ⟨hcode, hmask, ?_⟩
  obtain rfl | ⟨n, -, hmarked, hend, op, hop, hterm⟩ := hstart
  · exact .inl rfl
  · exact .inr ⟨n, op, hop, hterm, hmarked, hend⟩

/-- An instruction that stays in status OK goes to the next offset or lands on a block start. -/
theorem ExecStep.pc_of_ok {i : Instr} {s t : State} (h : ExecStep i s t) (ht : t.status = .ok) :
    t.pc = s.nextPc ∨ s.Lands t.pc := by
  cases h
  case advance | write | write_mem => exact .inl rfl
  case jump _ hlands => exact .inr hlands
  case call _ hlands => exact .inr hlands
  case stop hst => obtain rfl | rfl := hst <;> cases ht
  case call_stop hst => obtain rfl | rfl := hst <;> cases ht
  case host => cases ht

/-- Settles O48: a step that ends in OK has fetched an instruction, which goes to the next offset or to a block start
of the image's own map. -/
theorem controlFlowIntegrity : Obligations.ControlFlowIntegrity := by
  intro s t hinv h ht
  obtain ⟨-, ⟨hterminal, rfl⟩ | ⟨-, -, hstep⟩⟩ := step_next h
  · simp [ht, Status.terminal] at hterminal
  have hinv' : (resume s).ImageInv := by rw [State.ImageInv, resume_image, resume_blocks]; exact hinv
  rw [← resume_image s, ← resume_pc]
  cases hstep
  case oog | fetch_fault | unassigned => cases ht
  case run g i _ _ hfetch hexec =>
    have hpc : (resume s).pc.toNat < (resume s).image.code.length := fetch_mapped (by simp [hfetch])
    refine ⟨hpc, ?_⟩
    obtain hnext | hlands := (exec_next hexec).pc_of_ok ht
    · left
      have hlen := State.toNat_nextPc hinv'.1 hpc
      rw [hnext]
      rw [State.instrLen, ← Nat.add_assoc] at hlen
      exact hlen
    · exact .inr (hlands.blockStart hinv')

end Sys2Proof.Machine
end

section
/-! PROOFS. The shared operation that each instruction is, with the registers it reads: from it, which instructions store
and which halt. Then where a step may write, and what an exception leaves (60_exceptions.md R345 to R353). -/

namespace Sys2Proof.Machine

/-! ### Every instruction is one shared operation -/

/-- A value that an instruction computes from the registers alone. -/
def OfRegs {α : Type} (f : State → α) : Prop := ∀ s t : State, t.regs = s.regs → f t = f s

/-- The opcodes of the store instructions (46_store.md R281 to R296). -/
def storeOpcodes : List Nat := [30, 31, 32, 33, 59, 60, 61, 62, 70, 71, 72, 73, 120, 121, 122, 123]

/-- The shared operation that is the meaning of `i`. Each operand is a function of the registers, and an operation that
only some instructions use names them. -/
inductive Runs (i : Instr) : (State → Result) → Prop where
  | pass : Runs i fun s => .next s.advance
  | write (r : Reg) (v : State → Word) (hv : OfRegs v) : Runs i fun s => s.writeReg r (v s)
  | write_if (c : State → Prop) [∀ s, Decidable (c s)] (r : Reg) (v : State → Word) (hc : OfRegs c) (hv : OfRegs v) :
      Runs i fun s => if c s then s.writeReg r (v s) else .next s.advance
  | load (r : Reg) (a : State → Nat) (n : Nat) (e : Word → Word) (ha : OfRegs a) : Runs i fun s => load r (a s) n e s
  | store (a : State → Nat) (n : Nat) (v : State → Word) (ha : OfRegs a) (hv : OfRegs v)
      (hi : i.opcode ∈ storeOpcodes) : Runs i fun s => store (a s) n (v s) s
  | branch (off : Int) (c : State → Bool) (hc : OfRegs c) : Runs i fun s => branch off (c s) s
  | call (off : Int) (r : Reg) (v : Word) : Runs i fun s => branch off true (s.setReg r v)
  | djump (a : State → BitVec 32) (ha : OfRegs a) (hi : ∃ r x, i = .jumpInd r x) : Runs i fun s => djump (a s) s
  | call_ind (a : State → BitVec 32) (r : Reg) (v : Word) (ha : OfRegs a) (hi : ∃ b y, i = .loadImmJumpInd r b v y) :
      Runs i fun s => djump (a s) (s.setReg r v)
  | trap : Runs i fun s => raise .panic s
  | host (c : Word) (hi : i = .ecalli c) : Runs i fun s => raise (.host c) s

theorem exec_runs (i : Instr) : Runs i (exec i) := by
  cases i
  case trap => exact .trap
  case fallthrough => exact .pass
  case ecalli c => exact .host c rfl
  case jump z => exact .branch z (fun _ => true) fun _ _ _ => rfl
  case loadImmJump r v z => exact .call z r v
  case jumpInd r x => exact .djump _ (fun s t h => by simp only [State.reg, h]) ⟨r, x, rfl⟩
  case loadImmJumpInd r b v y => exact .call_ind _ r v (fun s t h => by simp only [State.reg, h]) ⟨b, y, rfl⟩
  case cmovIz | cmovNz | cmovIzImm | cmovNzImm =>
    exact .write_if _ _ _ (fun s t h => by simp only [State.reg, h]) (fun s t h => by simp only [State.reg, h])
  case loadU8 | loadI8 | loadU16 | loadI16 | loadU32 | loadI32 | loadU64 | loadIndU8 | loadIndI8 | loadIndU16
      | loadIndI16 | loadIndU32 | loadIndI32 | loadIndU64 =>
    exact .load _ _ _ _ (fun s t h => by simp only [State.reg, h])
  case storeU8 | storeU16 | storeU32 | storeU64 | storeIndU8 | storeIndU16 | storeIndU32 | storeIndU64 | storeImmU8
      | storeImmU16 | storeImmU32 | storeImmU64 | storeImmIndU8 | storeImmIndU16 | storeImmIndU32 | storeImmIndU64 =>
    exact .store _ _ _ (fun s t h => by simp only [State.reg, h]) (fun s t h => by simp only [State.reg, h])
      (by simp [Instr.opcode, storeOpcodes])
  case branchEq | branchNe | branchLtU | branchLtS | branchGeU | branchGeS | branchEqImm | branchNeImm | branchLtUImm
      | branchLeUImm | branchGeUImm | branchGtUImm | branchLtSImm | branchLeSImm | branchGeSImm | branchGtSImm =>
    exact .branch _ _ (fun s t h => by simp only [State.reg, h])
  all_goals exact .write _ _ (fun s t h => by simp only [State.reg, h])

/-! ### Which instructions store, and which halt -/

/-- Memory and the status after an operation that neither stores nor jumps to an address in a register. -/
def State.Calm (s t : State) : Prop := t.mem = s.mem ∧ (t.status = s.status ∨ t.status = .panic)

theorem load_calm {r : Reg} {a n : Nat} {e : Word → Word} {s t : State} (h : load r a n e s = .next t) :
    s.Calm t := by
  obtain ⟨v, -, hload⟩ | ⟨f, -, hload⟩ := load_cases r a n e s
  · cases hload.symm.trans h; exact ⟨rfl, .inl rfl⟩
  · cases hload.symm.trans h; exact ⟨rfl, .inr rfl⟩

theorem branch_calm {off : Int} {c : Bool} {s t : State} (h : branch off c s = .next t) : s.Calm t := by
  obtain ⟨-, hbranch⟩ | ⟨-, -, hbranch, -⟩ | ⟨-, -, hbranch⟩ := branch_cases off c s
  · cases hbranch.symm.trans h; exact ⟨rfl, .inl rfl⟩
  · cases hbranch.symm.trans h; exact ⟨rfl, .inl rfl⟩
  · cases hbranch.symm.trans h; exact ⟨rfl, .inr rfl⟩

theorem store_status {a n : Nat} {v : Word} {s t : State} (h : store a n v s = .next t) :
    t.status = s.status ∨ t.status = .panic := by
  obtain ⟨m, -, hstore⟩ | ⟨e, -, hstore⟩ := store_cases a n v s
  · cases hstore.symm.trans h; exact .inl rfl
  · cases hstore.symm.trans h; exact .inr rfl

theorem djump_mem {a : BitVec 32} {s t : State} (h : djump a s = .next t) : t.mem = s.mem := by
  obtain ⟨-, hjump⟩ | ⟨-, -, hjump⟩ | ⟨-, -, -, hjump, -⟩ | ⟨-, -, -, hjump⟩ := djump_cases a s <;>
    cases hjump.symm.trans h <;> rfl

/-- Every instruction but the stores, the dynamic jumps and ECALLI is calm. -/
theorem Runs.effect {i : Instr} {run : State → Result} (h : Runs i run) {s t : State} (ht : run s = .next t) :
    s.Calm t ∨
      (i.opcode ∈ storeOpcodes ∧ (t.status = s.status ∨ t.status = .panic)) ∨
      (t.mem = s.mem ∧ ((∃ r x, i = .jumpInd r x) ∨ ∃ r b v y, i = .loadImmJumpInd r b v y)) ∨
      (t.mem = s.mem ∧ ∃ c, t.status = .host c) := by
  cases h
  case pass => cases ht; exact .inl ⟨rfl, .inl rfl⟩
  case write => cases ht; exact .inl ⟨rfl, .inl rfl⟩
  case write_if c _ r v _ _ =>
    dsimp only at ht
    split at ht <;> cases ht <;> exact .inl ⟨rfl, .inl rfl⟩
  case load => exact .inl (load_calm ht)
  case store hi => exact .inr (.inl ⟨hi, store_status ht⟩)
  case branch => exact .inl (branch_calm ht)
  case call r v => exact .inl (branch_calm (s := s.setReg r v) ht)
  case djump hi => exact .inr (.inr (.inl ⟨djump_mem ht, .inl hi⟩))
  case call_ind r v _ hi =>
    obtain ⟨b, y, rfl⟩ := hi
    exact .inr (.inr (.inl ⟨djump_mem (s := s.setReg r v) ht, .inr ⟨r, b, v, y, rfl⟩⟩))
  case trap => cases ht; exact .inl ⟨rfl, .inr rfl⟩
  case host c _ => cases ht; exact .inr (.inr (.inr ⟨rfl, c, rfl⟩))

/-- Only a store changes the memory. -/
theorem exec_mem {i : Instr} {s t : State} (h : exec i s = .next t) : t.mem = s.mem ∨ i.opcode ∈ storeOpcodes := by
  obtain ⟨hmem, -⟩ | ⟨hstore, -⟩ | ⟨hmem, -⟩ | ⟨hmem, -⟩ := (exec_runs i).effect h
  · exact .inl hmem
  · exact .inr hstore
  · exact .inl hmem
  · exact .inl hmem

/-- Only a dynamic jump halts. -/
theorem exec_halt {i : Instr} {s t : State} (h : exec i s = .next t) (hok : s.status = .ok) (ht : t.status = .halt) :
    (∃ r x, i = .jumpInd r x) ∨ ∃ r b v y, i = .loadImmJumpInd r b v y := by
  obtain ⟨-, hstatus⟩ | ⟨-, hstatus⟩ | ⟨-, hjump⟩ | ⟨-, c, hhost⟩ := (exec_runs i).effect h
  · simp [ht, hok] at hstatus
  · simp [ht, hok] at hstatus
  · exact hjump
  · simp [ht] at hhost

/-! ### Where a step writes -/

/-- A byte that a write changes lies on a Writable page. -/
theorem Memory.write_writable {m m' : Memory} (hm : m.wf) {a n : Nat} {v : Word} (h : m.write a n v = .ok m') {x : Nat}
    (hx : m'.byte x ≠ m.byte x) : m.pageState (x / config.pageSize) = .writable := by
  have hbyte := Memory.byte_storeFrom hm h x
  obtain ⟨-, hempty | ⟨-, hpages⟩⟩ := Memory.storeFrom_ok h
  · rw [if_neg (by omega)] at hbyte
    exact absurd hbyte hx
  · by_cases hin : a ≤ x ∧ x < a + (leBytes n v).length
    · have hpage := hpages (x - a) (by omega)
      rwa [Nat.add_sub_cancel' hin.1] at hpage
    · rw [if_neg hin] at hbyte
      exact absurd hbyte hx

theorem ExecStep.writable {i : Instr} {s t : State} (h : ExecStep i s t) (hm : s.mem.wf) {x : Nat}
    (hx : t.mem.byte x ≠ s.mem.byte x) : s.mem.pageState (x / config.pageSize) = .writable := by
  cases h
  case write_mem a n v m hwrite => exact Memory.write_writable hm hwrite hx
  all_goals exact absurd rfl hx

/-- A step leaves the memory, or runs the instruction at the fetch offset. -/
theorem StepFrom.mem_cases {r t : State} (h : StepFrom r t) :
    t.mem = r.mem ∨ ∃ (g : Gas) (i : Instr), fetch r = .ok i ∧ exec i { r with gas := g } = .next t := by
  cases h
  case run g i _ _ hfetch hexec => exact .inr ⟨g, i, hfetch, hexec⟩
  all_goals exact .inl rfl

/-- Settles O46: memory changes only through the instruction run, which is then a store, and a store is checked. -/
theorem onlyWritableBytesChange : Obligations.OnlyWritableBytesChange := by
  intro s t hm h
  obtain ⟨-, ⟨-, rfl⟩ | ⟨-, -, hstep⟩⟩ := step_next h
  · exact ⟨fun x hx => absurd rfl hx, fun hne => absurd rfl hne⟩
  rw [← resume_mem s] at hm ⊢
  rw [← fetch_resume]
  obtain hmem | ⟨g, i, hfetch, hexec⟩ := hstep.mem_cases
  · rw [hmem]
    exact ⟨fun x hx => absurd rfl hx, fun hne => absurd rfl hne⟩
  · exact ⟨fun x hx => (exec_next hexec).writable hm hx, fun hne => ⟨i, hfetch, (exec_mem hexec).resolve_left hne⟩⟩

/-! ### What an exception leaves -/

/-- What an instruction that does not stay in status OK leaves. -/
theorem ExecStep.precise {i : Instr} {s t : State} (h : ExecStep i s t) (hok : s.status = .ok) (ht : t.status ≠ .ok) :
    t.mem = s.mem ∧ t.pc = s.pc ∧
      (t.regs = s.regs ∨
        ∃ (r : Reg) (v : Word), t.regs = s.regs.set r v ∧ (t.status = .panic ∨ t.status = .halt) ∧
          Instr.Links i r v) ∧
      (∀ c, t.status = .host c → i = .ecalli c) ∧ ∀ a, t.status ≠ .fault a := by
  cases h
  case advance | write | write_mem | jump | call => exact absurd hok ht
  case stop st hst => obtain rfl | rfl := hst <;> exact ⟨rfl, rfl, .inl rfl, nofun, nofun⟩
  case call_stop r v st hlinks hst =>
    refine ⟨rfl, rfl, .inr ⟨r, v, rfl, hst, hlinks⟩, ?_⟩
    obtain rfl | rfl := hst <;> exact ⟨nofun, nofun⟩
  case host c hi => exact ⟨rfl, rfl, .inl rfl, fun c' hc => by cases hc; exact hi, nofun⟩

/-- Settles O47: the three ends before an instruction write nothing but the status and the gas, and an instruction that
ends in an exception is precise. -/
theorem exceptionsArePrecise : Obligations.ExceptionsArePrecise := by
  intro s t hterminal h ht
  obtain ⟨-, ⟨hterminal', -⟩ | ⟨-, hok, hstep⟩⟩ := step_next h
  · simp [hterminal] at hterminal'
  rw [← fetch_resume, ← resume_mem s, ← resume_regs s, ← resume_pc, ← resume_image s]
  cases hstep
  case oog => exact ⟨rfl, rfl, .inl rfl, nofun, nofun, nofun⟩
  case fetch_fault g _ _ hfetch =>
    refine ⟨rfl, rfl, .inl rfl, nofun, nofun, fun a ha => ?_⟩
    cases ha
    exact ⟨rfl, fetch_unmapped hfetch⟩
  case unassigned => exact ⟨rfl, rfl, .inl rfl, nofun, nofun, nofun⟩
  case run g i _ _ hfetch hexec =>
    obtain ⟨hmem, hpc, hregs, hhost, hfault⟩ := (exec_next hexec).precise hok ht
    rw [hfetch]
    simp only [Except.ok.injEq]
    exact ⟨hmem, hpc, hregs, exec_halt hexec hok, hhost, fun a ha => absurd ha (hfault a)⟩

end Sys2Proof.Machine
end

section
/-! PROOFS. Gas over a step and over a run (10_state.md R27, 60_exceptions.md R341, R342, R344). -/

namespace Sys2Proof.Machine

/-! ### One step -/

theorem exec_gas {i : Instr} {s t : State} (h : exec i s = .next t) : t.gas = s.gas := by
  cases exec_next h <;> rfl

theorem exec_status_ne_oog {i : Instr} {s t : State} (h : exec i s = .next t) (hok : s.status = .ok) :
    t.status ≠ .oog := by
  cases exec_next h
  case advance | write | write_mem | jump | call => exact fun hoog => by cases hok.symm.trans hoog
  case stop hst => obtain rfl | rfl := hst <;> nofun
  case call_stop hst => obtain rfl | rfl := hst <;> nofun
  case host => nofun

/-- The two ends of a step from status OK: OOG with the gas as it was, or the cost taken. -/
theorem StepFrom.gas_cases {r t : State} (h : StepFrom r t) (hok : r.status = .ok) :
    (r.gas.toInt < fetchCost r ∧ t.gas = r.gas ∧ t.status = .oog) ∨
      (fetchCost r ≤ r.gas.toInt ∧ t.gas.toInt = r.gas.toInt - fetchCost r ∧ t.status ≠ .oog) := by
  cases h
  case oog hpoor => exact .inl ⟨hpoor, rfl, rfl⟩
  case fetch_fault g hpaid hg _ => exact .inr ⟨hpaid, hg, nofun⟩
  case unassigned g b hpaid hg _ => exact .inr ⟨hpaid, hg, nofun⟩
  case run g i hpaid hg _ hexec =>
    refine .inr ⟨hpaid, ?_, exec_status_ne_oog hexec hok⟩
    rw [exec_gas hexec]
    exact hg

theorem fetchCost_resume (s : State) : fetchCost (resume s) = s.costAt s.fetchPc := by
  rw [fetchCost_eq_costAt, resume_pc, State.costAt, State.costAt, resume_image, resume_params]

/-- Settles O49: the two ends of a step, and that no cost is negative. -/
theorem gasAccounting : Obligations.GasAccounting := by
  intro s t h
  obtain ⟨-, ⟨hterminal, rfl⟩ | ⟨hterminal, hok, hstep⟩⟩ := step_next h
  · simp [hterminal]
  · have hends := hstep.gas_cases hok
    rw [fetchCost_resume, resume_gas] at hends
    refine ⟨by simp [hterminal], fun _ => hends, ?_⟩
    obtain ⟨-, hgas, -⟩ | ⟨hpaid, hgas, -⟩ := hends <;> rw [hgas] <;> omega

/-! ### Every step once initialized -/

theorem exec_total (i : Instr) (s : State) : ∃ t, exec i s = .next t := by
  obtain ⟨t, ht, -⟩ := exec_does i s
  exact ⟨t, ht⟩

theorem cycle_total {s : State} (hok : s.status = .ok) : ∃ t, cycle exec s = .next t := by
  obtain ⟨-, h⟩ | ⟨g, -, -, ⟨-, h⟩ | ⟨b, -, h⟩ | ⟨i, -, h⟩⟩ := cycle_cases exec s hok
  · exact ⟨_, h⟩
  · exact ⟨_, h⟩
  · exact ⟨_, h⟩
  · rw [h]; exact exec_total i _

theorem step_total {s : State} (h : s.life = .initialized) : ∃ t, step s = .next t ∧ t.life = .initialized := by
  have hnext : ∃ t, step s = .next t := by
    obtain ⟨hl, -⟩ | ⟨-, -, -, hstep⟩ | ⟨-, hok, hstep⟩ := nextStep_cases exec s
    · cases h.symm.trans hl
    · exact ⟨s, hstep⟩
    · exact (cycle_total hok).imp fun t ht => hstep.trans ht
  obtain ⟨t, ht⟩ := hnext
  exact ⟨t, ht, (step_sameProgram ht).life.trans h⟩

/-! ### A run -/

theorem runProgram_succ {s t : State} (n : Nat) (h : step s = .next t) :
    runProgram (n + 1) s = if t.status = .ok then runProgram n t else some (.next t) := by
  rw [runProgram, h]

/-- A step that ends in OK takes at least the least cost. -/
theorem step_gas_lt {s t : State} (h : step s = .next t) (ht : t.status = .ok) (hcost : ∀ op, 1 ≤ s.params.gasCost op) :
    t.gas.toInt < s.gas.toInt ∧ 0 < s.gas.toInt := by
  obtain ⟨-, ⟨hterminal, rfl⟩ | ⟨-, hok, hstep⟩⟩ := step_next h
  · simp [ht, Status.terminal] at hterminal
  have hpos : 1 ≤ fetchCost (resume s) := by
    unfold fetchCost
    split <;> rw [resume_params] <;> exact hcost _
  obtain ⟨-, -, hoog⟩ | ⟨hpaid, hgas, -⟩ := hstep.gas_cases hok
  · cases ht.symm.trans hoog
  · rw [resume_gas] at hpaid hgas
    omega

/-- A run with more steps to make than it has gas ends: each step that ends in OK takes gas. -/
theorem runProgram_ends {n : Nat} {s : State} (hlife : s.life = .initialized)
    (hcost : ∀ op, 1 ≤ s.params.gasCost op) (hgas : s.gas.toInt ≤ n) :
    ∃ t, runProgram (n + 1) s = some (.next t) ∧ t.status ≠ .ok := by
  induction n generalizing s with
  | zero =>
    obtain ⟨t, hstep, -⟩ := step_total hlife
    have ht : t.status ≠ .ok := fun hok => by
      have hspent := step_gas_lt hstep hok hcost
      omega
    exact ⟨t, by rw [runProgram_succ 0 hstep, if_neg ht], ht⟩
  | succ n ih =>
    obtain ⟨t, hstep, htlife⟩ := step_total hlife
    rw [runProgram_succ (n + 1) hstep]
    by_cases ht : t.status = .ok
    · have hspent := step_gas_lt hstep ht hcost
      rw [if_pos ht]
      exact ih htlife (by rwa [(step_sameProgram hstep).params]) (by omega)
    · rw [if_neg ht]
      exact ⟨t, rfl, ht⟩

/-- A run that ends has made a last step, which did not end in OK. -/
theorem runProgram_status {n : Nat} {s : State} {r : Result} (hlife : s.life = .initialized)
    (h : runProgram n s = some r) : ∃ t, r = .next t ∧ t.status ≠ .ok := by
  induction n generalizing s with
  | zero => cases h
  | succ n ih =>
    obtain ⟨t, hstep, htlife⟩ := step_total hlife
    rw [runProgram_succ n hstep] at h
    by_cases ht : t.status = .ok
    · rw [if_pos ht] at h
      exact ih htlife h
    · rw [if_neg ht] at h
      cases h
      exact ⟨t, rfl, ht⟩

/-- Settles O50, by induction on the number of steps. -/
theorem runTerminates : Obligations.RunTerminates :=
  ⟨fun s hlife hcost => runProgram_ends hlife hcost (by omega), fun _ _ _ => runProgram_status⟩

end Sys2Proof.Machine
end

section
/-! PROOFS. The host's operations between steps (60_exceptions.md R354, R366 to R369, 70_reset_and_hazards.md R380 to
R384): what each that completes has done, and what it keeps. -/

namespace Sys2Proof.Machine

/-! ### What a host operation that completes has done -/

theorem guarded_ok {α : Type} {s : State} {a : Except Refusal α} {x : α} (h : s.guarded a = .ok x) : a = .ok x := by
  cases hlife : s.life
  · rw [guarded_uninitialized hlife] at h; cases h
  · rwa [guarded_initialized hlife] at h

theorem hostAnswer_next {r : Except Refusal State} {t : State} (h : hostAnswer r = .next t) : r = .ok t := by
  cases r <;> cases h
  rfl

theorem withReg_ok {α : Type} {s : State} {i : Nat} {f : Reg → Except Refusal α} {x : α} (h : s.withReg i f = .ok x) :
    ∃ r, f r = .ok x := by
  have hreg := guarded_ok h
  split at hreg
  · exact ⟨_, hreg⟩
  · cases hreg

theorem setU64_next {i v : Nat} {s t : State} (h : setU64 i v s = .next t) : ∃ regs, t = { s with regs := regs } := by
  obtain ⟨r, hr⟩ := withReg_ok (hostAnswer_next h)
  exact ⟨_, (Except.ok.inj hr).symm⟩

theorem setU32_next {i v : Nat} {s t : State} (h : setU32 i v s = .next t) : ∃ regs, t = { s with regs := regs } := by
  obtain ⟨r, hr⟩ := withReg_ok (hostAnswer_next h)
  exact ⟨_, (Except.ok.inj hr).symm⟩

theorem setAllEncoded_next {bs : List Byte} {s t : State} (h : setAllEncoded bs s = .next t) :
    ∃ regs, t = { s with regs := regs } := by
  have hset := guarded_ok (hostAnswer_next h)
  split at hset
  · exact ⟨_, (Except.ok.inj hset).symm⟩
  · cases hset

theorem hostStoreFrom_next {a : Nat} {bs : List Byte} {s t : State} (h : hostStoreFrom a bs s = .next t) :
    ∃ m, s.mem.storeFrom a bs = .ok m ∧ t = { s with mem := m } := by
  unfold hostStoreFrom at h
  split at h
  · cases h
  · cases h
  · rename_i m hm
    exact ⟨m, Except.ok.inj (guarded_ok hm) , by cases h; rfl⟩

theorem chargeGas_next {cost : Nat} {s t : State} (h : chargeGas cost s = .next t) : t = charge cost s := by
  have hcharge := guarded_ok (hostAnswer_next h)
  split at hcharge
  · exact (Except.ok.inj hcharge).symm
  · cases hcharge

/-- The host's writes of registers and memory, as the statements list them. -/
theorem hostWrite_next {s t : State}
    (h : (∃ i v, setU64 i v s = .next t ∨ setU32 i v s = .next t) ∨ (∃ bytes, setAllEncoded bytes s = .next t) ∨
      ∃ a bytes, hostStoreFrom a bytes s = .next t) :
    (∃ regs, t = { s with regs := regs }) ∨ ∃ a bs m, s.mem.storeFrom a bs = .ok m ∧ t = { s with mem := m } := by
  obtain ⟨i, v, h | h⟩ | ⟨bytes, h⟩ | ⟨a, bytes, h⟩ := h
  · exact .inl (setU64_next h)
  · exact .inl (setU32_next h)
  · exact .inl (setAllEncoded_next h)
  · exact .inr ⟨a, bytes, hostStoreFrom_next h⟩

/-! ### Terminal statuses -/

theorem chargeGas_not_host {s : State} (hlife : s.life = .initialized) (h : s.status.isHost = false) (cost : Nat) :
    chargeGas cost s = .refused .notSuspended := by
  rw [chargeGas, guarded_initialized hlife]
  cases hs : s.status
  case host c => simp [hs, Status.isHost] at h
  all_goals rfl

/-- Settles O37: no operation listed writes the status, `pc` or the gas in a terminal status. -/
theorem terminalStatusIsSticky : Obligations.TerminalStatusIsSticky := by
  intro s hlife hterminal
  have hstep := step_of_terminal hlife hterminal
  have hne : s.status ≠ .ok := fun hok => by simp [hok, Status.terminal] at hterminal
  have hhost : s.status.isHost = false := by cases hs : s.status <;> simp_all [Status.terminal, Status.isHost]
  refine ⟨hstep, fun n => ?_, chargeGas_not_host hlife hhost, fun t ht => ?_⟩
  · rw [runProgram_succ n hstep, if_neg hne]
  · obtain ⟨regs, rfl⟩ | ⟨a, bs, m, -, rfl⟩ := hostWrite_next ht <;> exact ⟨rfl, rfl, rfl⟩

/-! ### The charge of a host call -/

theorem chargeGas_host {s : State} {c : Word} (hlife : s.life = .initialized) (h : s.status = .host c) (cost : Nat) :
    chargeGas cost s = .next (charge cost s) := by
  rw [chargeGas, guarded_initialized hlife, h]
  rfl

/-- Settles O55: the host's charge is the step's, and the OOG it leaves is terminal. -/
theorem hostCallCharge : Obligations.HostCallCharge := by
  intro s c cost hlife hhost
  rw [chargeGas_host hlife hhost]
  obtain ⟨hpoor, hcharge⟩ | ⟨hpaid, g, hg, hcharge⟩ := charge_cases cost s
  · exact ⟨fun h => by omega, fun _ => ⟨congrArg _ hcharge, step_of_terminal hlife rfl⟩⟩
  · exact ⟨fun _ => ⟨g, hg, congrArg _ hcharge⟩, fun h => by omega⟩

/-! ### Every operation answers -/

/-- Settles O42: the step is total, and every other operation is guarded by the lifecycle flag. -/
theorem stepIsTotal : Obligations.StepIsTotal := by
  refine ⟨fun s h => ?_, fun s h => ?_⟩
  · refine ⟨step_total h, guarded_initialized h _, guarded_initialized h _, guarded_initialized h _,
      fun a n => guarded_initialized h _, fun a bytes m hm => ?_, fun a bytes e he => ?_⟩
    · rw [hostStoreFrom_initialized h, hm]
    · rw [hostStoreFrom_initialized h, he]
  · have hstep := step_uninitialized h
    refine ⟨hstep, fun n => by rw [runProgram, hstep], guarded_uninitialized h _, guarded_uninitialized h _,
      guarded_uninitialized h _, fun i => ⟨withReg_uninitialized h i _, withReg_uninitialized h i _,
        withReg_uninitialized h i _, fun n => withReg_uninitialized h i _⟩, fun i v => ⟨?_, ?_⟩,
      guarded_uninitialized h _, fun bytes => ?_, fun a n => guarded_uninitialized h _, fun a bytes => ?_,
      fun cost => ?_⟩
    · rw [setU64, withReg_uninitialized h]; rfl
    · rw [setU32, withReg_uninitialized h]; rfl
    · rw [setAllEncoded, guarded_uninitialized h]; rfl
    · rw [hostStoreFrom, guarded_uninitialized h]
    · rw [chargeGas, guarded_uninitialized h]; rfl

/-! ### The invariant -/

theorem State.Inv.setRegs {s : State} (h : s.Inv) (regs : Vector Word 13) : ({ s with regs := regs } : State).Inv :=
  ⟨h.mem, h.image, h.align, h.status⟩

theorem State.Inv.setMem {s : State} (h : s.Inv) {m : Memory} (hm : m.wf) : ({ s with mem := m } : State).Inv :=
  ⟨hm, h.image, h.align, h.status⟩

theorem State.Inv.charge {s : State} (h : s.Inv) (cost : Nat) : (charge cost s).Inv := by
  obtain ⟨-, hcharge⟩ | ⟨-, g, -, hcharge⟩ := charge_cases cost s
  · rw [hcharge]; exact ⟨h.mem, h.image, h.align, trivial⟩
  · rw [hcharge]; exact ⟨h.mem, h.image, h.align, h.status⟩

theorem hostReset_inv {p : Image} {pc : CodeAddr} {gas : Gas} {regs : Option (Vector Word 13)} {mem : Option Memory}
    {u : Unspecified} {s t : State} (halign : 0 < s.params.jumpAlign) (hmem : ∀ m, mem = some m → m.wf)
    (h : hostReset p pc gas regs mem u s = .next t) : t.Inv := by
  unfold hostReset at h
  split at h
  · rename_i hwf
    cases h
    refine ⟨?_, ⟨hwf, rfl⟩, halign, trivial⟩
    cases mem with
    | none => exact emptyMemory_wf
    | some m => exact hmem m rfl
  · cases h

/-- Settles O54, one operation at a time. -/
theorem hostOperationsKeepInvariant : Obligations.HostOperationsKeepInvariant := by
  refine ⟨fun p pc gas regs mem u s t => hostReset_inv, fun s t hinv h => ?_⟩
  have hcases : ((∃ i v, setU64 i v s = .next t ∨ setU32 i v s = .next t) ∨
      (∃ bytes, setAllEncoded bytes s = .next t) ∨ ∃ a bytes, hostStoreFrom a bytes s = .next t) ∨
      ∃ cost, chargeGas cost s = .next t := by simpa only [or_assoc] using h
  obtain hwrite | ⟨cost, hcharge⟩ := hcases
  · obtain ⟨regs, rfl⟩ | ⟨a, bs, m, hm, rfl⟩ := hostWrite_next hwrite
    · exact hinv.setRegs regs
    · exact hinv.setMem (Memory.storeFrom_wf hinv.mem hm)
  · rw [chargeGas_next hcharge]
    exact hinv.charge cost

/-! ### Reset and destroy -/

theorem hostReset_of_wf {p : Image} (h : p.wf = true) (pc : CodeAddr) (gas : Gas) (regs : Option (Vector Word 13))
    (mem : Option Memory) (u : Unspecified) (s : State) :
    ∃ t, hostReset p pc gas regs mem u s = .next t ∧ t.life = .initialized ∧ t.status = .ok ∧ t.pc = pc ∧ t.gas = gas ∧
      t.image = p ∧ t.blocks = blockMap p ∧ t.params = s.params ∧ t.regs = regs.getD (Vector.replicate 13 0) ∧
      t.mem = mem.getD { heapStart := u.heapStart, heapEnd := u.heapEnd, sbrkIndex := u.sbrkIndex } :=
  ⟨_, if_pos h, rfl, rfl, rfl, rfl, rfl, rfl, rfl, rfl, rfl⟩

/-- Settles O53: the fields of the state reset answers, the two refusals, and that reset reads only the parameters of
the old state. -/
theorem resetEffect : Obligations.ResetEffect := by
  intro deblob code pc gas regs mem u s
  refine ⟨fun p hp hwf => ?_, fun h => ?_, fun rest => ⟨rfl, rfl, rfl, rfl, ?_, ?_⟩⟩
  · obtain ⟨t, hreset, hlife, hstatus, hpc, hgas, himage, hblocks, hparams, hregs, hmem⟩ :=
      hostReset_of_wf hwf pc gas regs mem u s
    refine ⟨t, by rw [hostResetBlob, hp]; exact hreset, hlife, hstatus, hpc, hgas, himage, hblocks, hparams,
      fun r hr => ?_, fun hr r => ?_, fun m hm => ?_, fun hm => ?_⟩
    · rw [hregs, hr]; rfl
    · simp [State.reg, hregs, hr]
    · rw [hmem, hm]; rfl
    · rw [hmem, hm]; exact ⟨fun _ => rfl, rfl⟩
  · obtain hnone | ⟨p, hp, hwf⟩ := h
    · rw [hostResetBlob, hnone]
    · rw [hostResetBlob, hp]
      exact if_neg (by simp [hwf])
  · exact hostResetBlob_params deblob code pc gas regs mem u (destroy_params rest s)
  · exact hostResetBlob_params deblob code pc gas regs mem u (newInstance_params s.params rest)

end Sys2Proof.Machine
end

section
/-! PROOFS. What a step does not look at (10_state.md R28, R34, R35, 30_encoding.md R132): the heap values, the resume
latch outside HOST, and of the jump table all but its members. A state with these replaced makes the same step, since
each shared operation makes the same of it. -/

namespace Sys2Proof.Machine

/-- Replacements for what a step does not look at. -/
structure Veil where
  latch : CodeAddr
  heapStart : Nat
  heapEnd : Nat
  sbrkIndex : Nat
  jumpTable : List Nat

def Memory.veil (v : Veil) (m : Memory) : Memory :=
  { m with heapStart := v.heapStart, heapEnd := v.heapEnd, sbrkIndex := v.sbrkIndex }

def State.veil (v : Veil) (s : State) : State :=
  { s with resumePc := v.latch, mem := s.mem.veil v, image := { s.image with jumpTable := v.jumpTable } }

/-- An answer with its next state veiled. -/
def veilResult (v : Veil) : Result → Result
  | .next t => .next (t.veil v)
  | .fault f => .fault f
  | .refused e => .refused e

/-- The jump table put in place has the members of the state's own. -/
def Veil.Fits (v : Veil) (s : State) : Prop := ∀ a, a ∈ v.jumpTable ↔ a ∈ s.image.jumpTable

section Veiled
variable {v : Veil}

/-! ### The shared operations -/

theorem Memory.setBytes_veil (m : Memory) (a : Nat) (bs : List Byte) :
    (m.veil v).setBytes a bs = (m.setBytes a bs).veil v := by
  induction bs generalizing m a with
  | nil => rfl
  | cons b bs ih => exact ih (m.setByte a b) (a + 1)

theorem Memory.write_veil (m : Memory) (a n : Nat) (x : Word) :
    (m.veil v).write a n x = (m.write a n x).map (Memory.veil v) := by
  have hcheck : (m.veil v).check a (leBytes n x).length true = m.check a (leBytes n x).length true := rfl
  rw [Memory.write, Memory.storeFrom, hcheck, Memory.write, Memory.storeFrom]
  cases m.check a (leBytes n x).length true
  · rfl
  · exact congrArg Except.ok (m.setBytes_veil a _)

theorem load_veil (r : Reg) (a n : Nat) (e : Word → Word) (s : State) :
    load r a n e (s.veil v) = veilResult v (load r a n e s) := by
  have hread : (s.veil v).mem.read a n = s.mem.read a n := rfl
  rw [load, hread, load]
  cases s.mem.read a n <;> rfl

theorem store_veil (a n : Nat) (x : Word) (s : State) : store a n x (s.veil v) = veilResult v (store a n x s) := by
  have hwrite : (s.veil v).mem.write a n x = (s.mem.write a n x).map (Memory.veil v) := s.mem.write_veil a n x
  rw [store, hwrite, store]
  cases s.mem.write a n x <;> rfl

theorem branch_veil (off : Int) (c : Bool) (s : State) :
    branch off c (s.veil v) = veilResult v (branch off c s) := by
  have hlegal : ∀ t, (s.veil v).legalTarget t = s.legalTarget t := fun _ => rfl
  have htarget : (s.veil v).branchTarget off = s.branchTarget off := rfl
  unfold branch
  rw [hlegal, htarget]
  split
  · rfl
  · split <;> rfl

theorem legalJump_veil {s : State} (h : v.Fits s) (a : BitVec 32) : (s.veil v).legalJump a = s.legalJump a := by
  rw [Bool.eq_iff_iff, legalJump_iff, legalJump_iff]
  exact and_congr_right fun _ => and_congr_left fun _ => h a.toNat

theorem djump_veil {s : State} (h : v.Fits s) (a : BitVec 32) :
    djump a (s.veil v) = veilResult v (djump a s) := by
  have hparams : (s.veil v).params = s.params := rfl
  unfold djump
  rw [legalJump_veil h, hparams]
  split
  · rfl
  · split
    · rfl
    · split <;> rfl

/-! ### Every instruction -/

/-- Every instruction but ECALLI does to the veiled state what it does to the state. -/
theorem runs_veil {i : Instr} {run : State → Result} (h : Runs i run) (hi : ∀ c, i ≠ .ecalli c) {s : State}
    (hfits : v.Fits s) : run (s.veil v) = veilResult v (run s) := by
  have hregs : (s.veil v).regs = s.regs := rfl
  cases h
  case pass => rfl
  case trap => rfl
  case host c hc => exact absurd hc (hi c)
  case write r x hx => simp only [hx s _ hregs]; rfl
  case write_if c _ r x hc hx =>
    simp only [hc s _ hregs, hx s _ hregs]
    split <;> rfl
  case load r a n e ha => simp only [ha s _ hregs, load_veil]
  case store a n x ha hx _ => simp only [ha s _ hregs, hx s _ hregs, store_veil]
  case branch off c hc => simp only [hc s _ hregs, branch_veil]
  case call off r x => exact branch_veil off true (s.setReg r x)
  case djump a ha _ => simp only [ha s _ hregs, djump_veil hfits]
  case call_ind a r x ha _ =>
    simp only [ha s _ hregs]
    exact djump_veil (s := s.setReg r x) hfits (a s)

/-- The answer to the veiled state: the same next state, veiled, but that a host call records its own resume offset. -/
def Veil.Through (v : Veil) (t : State) (r : Result) : Prop :=
  ∃ l, r = .next (t.veil { v with latch := l }) ∧ (l = v.latch ∨ l = t.resumePc) ∧
    (t.status.isHost = true → l = t.resumePc)

theorem Veil.through_of_not_host {t : State} {r : Result} (h : r = .next (t.veil v)) (ht : t.status.isHost = false) :
    v.Through t r := ⟨v.latch, h, .inl rfl, fun hhost => by simp [ht] at hhost⟩

/-- Only ECALLI ends in HOST. -/
theorem exec_not_host {i : Instr} {s t : State} (h : exec i s = .next t) (hok : s.status = .ok)
    (hi : ∀ c, i ≠ .ecalli c) : t.status.isHost = false := by
  cases hstatus : t.status
  case host c =>
    obtain ⟨-, -, -, hhost, -⟩ := (exec_next h).precise hok (by simp [hstatus])
    exact absurd (hhost c hstatus) (hi c)
  all_goals rfl

theorem exec_through {i : Instr} {s t : State} (h : exec i s = .next t) (hok : s.status = .ok) (hfits : v.Fits s) :
    v.Through t (exec i (s.veil v)) := by
  by_cases hi : ∃ c, i = .ecalli c
  · obtain ⟨c, rfl⟩ := hi
    cases h
    exact ⟨s.nextPc, rfl, .inr rfl, fun _ => rfl⟩
  · have hi' := not_exists.mp hi
    refine Veil.through_of_not_host ?_ (exec_not_host h hok hi')
    rw [runs_veil (exec_runs i) hi' hfits, h]
    rfl

/-! ### Every step -/

theorem charge_veil (cost : Nat) (s : State) : charge cost (s.veil v) = (charge cost s).veil v := by
  have hgas : (s.veil v).gas = s.gas := rfl
  unfold charge
  rw [hgas]
  split <;> rfl

theorem cycle_through {s t : State} (h : cycle exec s = .next t) (hok : s.status = .ok) (hfits : v.Fits s) :
    v.Through t (cycle exec (s.veil v)) := by
  have hcost : fetchCost (s.veil v) = fetchCost s := rfl
  have hfetch : fetch (s.veil v) = fetch s := rfl
  rw [cycle] at h ⊢
  rw [hcost, hfetch, charge_veil]
  obtain ⟨-, hcharge⟩ | ⟨-, g, -, hcharge⟩ := charge_cases (fetchCost s) s
  · rw [hcharge] at h ⊢
    cases h
    exact Veil.through_of_not_host rfl rfl
  · have hpaid : ({ s with gas := g } : State).status = .ok := hok
    have hpaid' : (({ s with gas := g } : State).veil v).status = .ok := hok
    simp only [hcharge, hpaid, hpaid', reduceCtorEq, if_false] at h ⊢
    cases hf : fetch s with
    | error e =>
      rw [hf] at h
      cases e <;> cases h <;> exact Veil.through_of_not_host rfl rfl
    | ok i =>
      rw [hf] at h
      exact exec_through (s := { s with gas := g }) h hok hfits

theorem resume_veil {s : State} (hlatch : s.status.isHost = true → v.latch = s.resumePc) :
    resume (s.veil v) = (resume s).veil v := by
  have hstatus : (s.veil v).status = s.status := rfl
  unfold resume
  rw [hstatus]
  cases hs : s.status
  case host c =>
    have hl : v.latch = s.resumePc := hlatch (by rw [hs]; rfl)
    simp only [State.veil, hl]
  all_goals rfl

theorem step_of_not_terminal {s : State} (hlife : s.life = .initialized) (h : s.status.terminal = false) :
    step s = cycle exec (resume s) := by
  have hok := (resume_status_ok_iff s).mpr h
  simp [step, nextStep, hlife, hok]

/-- A step makes of the veiled state what it makes of the state. -/
theorem step_through {s t : State} (h : step s = .next t) (hfits : v.Fits s)
    (hlatch : s.status.isHost = true → v.latch = s.resumePc) : v.Through t (step (s.veil v)) := by
  obtain ⟨hlife, ⟨hterminal, rfl⟩ | ⟨hrunning, hok, -⟩⟩ := step_next h
  · exact ⟨v.latch, step_of_terminal (s := t.veil v) hlife hterminal, .inl rfl, hlatch⟩
  · have hfits' : v.Fits (resume s) := by rw [Veil.Fits, resume_image]; exact hfits
    rw [step_of_not_terminal hlife hrunning] at h
    rw [step_of_not_terminal (s := s.veil v) hlife hrunning, resume_veil hlatch]
    exact cycle_through h hok hfits'

end Veiled

/-! ### The statements -/

/-- Outside HOST the latch stays as it was. -/
theorem step_resumePc {s t : State} (h : step s = .next t) (ht : t.status.isHost = false) :
    t.resumePc = s.resumePc := by
  obtain ⟨-, ⟨-, rfl⟩ | ⟨-, -, hstep⟩⟩ := step_next h
  · rfl
  rw [← resume_resumePc s]
  cases hstep
  case run hexec =>
    cases exec_next hexec
    case host => cases ht
    all_goals rfl
  all_goals rfl

/-- Settles O51: the veil with the heap values and the latch replaced and the jump table kept. -/
theorem heapValuesAndLatchAreUnseen : Obligations.HeapValuesAndLatchAreUnseen := by
  intro s t h1 h2 h3 latch hlatch h
  have himage := (step_sameProgram h).image
  obtain ⟨l, hstep, -, hhost⟩ :=
    step_through (v := ⟨latch, h1, h2, h3, s.image.jumpTable⟩) h (fun _ => Iff.rfl) hlatch
  have ht : t.veil ⟨l, h1, h2, h3, s.image.jumpTable⟩ =
      { t with resumePc := l, mem := { t.mem with heapStart := h1, heapEnd := h2, sbrkIndex := h3 } } := by
    rw [← himage]
    rfl
  exact ⟨l, hstep.trans (congrArg _ ht), hhost⟩

/-- Settles O52: the veil with the jump table replaced and the rest kept. -/
theorem jumpTableIsASet : Obligations.JumpTableIsASet := by
  intro s t J hJ h
  obtain ⟨hstart, hend, hindex⟩ := (step_sameProgram h).heap
  obtain ⟨l, hstep, hl, hhost⟩ :=
    step_through (v := ⟨s.resumePc, s.mem.heapStart, s.mem.heapEnd, s.mem.sbrkIndex, J⟩) h hJ fun _ => rfl
  have hlatch : l = t.resumePc := by
    cases ht : t.status.isHost
    · obtain rfl | hl := hl
      · exact (step_resumePc h ht).symm
      · exact hl
    · exact hhost ht
  have ht : t.veil ⟨l, s.mem.heapStart, s.mem.heapEnd, s.mem.sbrkIndex, J⟩ =
      { t with image := { t.image with jumpTable := J } } := by
    rw [hlatch, ← hstart, ← hend, ← hindex]
    rfl
  exact hstep.trans (congrArg _ ht)

end Sys2Proof.Machine
end

section
/-! PROOFS. The memory builder (20_memory.md R78): when a page call is accepted, and the pages and bytes it leaves. -/

namespace Sys2Proof.Machine

/-! ### The pages of an aligned range -/

/-- Every byte of `[lo, hi)` lies on an Absent page. -/
def Memory.Free (m : Memory) (lo hi : Nat) : Prop := ∀ x, lo ≤ x → x < hi → m.pageState (x / 4096) = .absent

theorem Memory.free_iff (m : Memory) (lo hi : Nat) :
    m.Free lo hi ↔ ∀ p ∈ pagesBetween lo hi, m.pageState p = .absent := by
  simp only [mem_pagesBetween]
  exact ⟨fun h p ⟨x, hlo, hhi, hp⟩ => hp ▸ h x hlo hhi, fun h x hlo hhi => h _ ⟨x, hlo, hhi, rfl⟩⟩

/-- Between multiples of the page size a page is in the range exactly if any of its bytes is. -/
theorem page_mem_pagesBetween {start stop : Nat} (hstart : start % 4096 = 0) (hstop : stop % 4096 = 0) (x : Nat) :
    x / 4096 ∈ pagesBetween start stop ↔ start ≤ x ∧ x < stop := by
  rw [mem_pagesBetween, config_pageSize]
  constructor
  · rintro ⟨y, hlo, hhi, hy⟩
    omega
  · rintro ⟨hlo, hhi⟩
    exact ⟨x, hlo, hhi, rfl⟩

/-- In canonical form an Absent page has no content. -/
theorem Memory.byte_of_absent {m : Memory} (hm : m.wf) {x : Nat} (h : m.pageState (x / 4096) = .absent) :
    m.byte x = 0 := by
  obtain ⟨-, -, hmapped⟩ := hm
  by_contra hne
  exact hmapped _ (mem_sparse_of_get hne) h

/-! ### The page calls -/

/-- The requirements on the arguments of a page call, whatever the builder holds. -/
def PageArgs (start stop : Nat) (data : List Byte) : Prop :=
  start % 4096 = 0 ∧ stop % 4096 = 0 ∧ start < stop ∧ stop ≤ 2 ^ 32 ∧ data.length ≤ stop - start

theorem Builder.accepts_iff_free (b : Builder) (start stop : Nat) (data : List Byte) :
    b.accepts start stop data = true ↔ PageArgs start stop data ∧ b.mem.Free start stop := by
  rw [Builder.accepts_iff, Memory.free_iff]
  simp only [PageArgs, and_assoc]
  rfl

theorem Builder.setPages_of_accepts {b : Builder} {start stop : Nat} {data : List Byte} (st : PageState)
    (h : b.accepts start stop data = true) :
    b.setPages st start stop data =
      .ok { mem := (assignPages st b.mem (pagesBetween start stop)).setBytes start data } := if_pos h

/-- The bytes of the range are the data, then what stood there: 0, since the pages were Absent. -/
theorem Builder.setPages_byte {b b' : Builder} {st : PageState} (hst : st ≠ .absent) {start stop : Nat}
    {data : List Byte} (hm : b.mem.wf) (h : b.setPages st start stop data = .ok b') (x : Nat) :
    b'.mem.byte x = if start ≤ x ∧ x < stop then data[x - start]?.getD 0 else b.mem.byte x := by
  have haccepts := (Builder.setPages_ok hst hm h).1
  obtain ⟨⟨hstart, hstop, hlt, htop, hdata⟩, hfree⟩ := (b.accepts_iff_free _ _ _).mp haccepts
  rw [Builder.setPages_of_accepts st haccepts] at h
  cases h
  have hpages : ∀ p ∈ pagesBetween start stop, p < maxPages := fun p => lt_maxPages_of_between htop
  have hwf := assignPages_wf hm hst hpages
  have hmapped : ∀ j < data.length,
      (assignPages st b.mem (pagesBetween start stop)).pageState ((start + j) / config.pageSize) ≠ .absent := by
    intro j hj
    have hmem : (start + j) / 4096 ∈ pagesBetween start stop := (page_mem_pagesBetween hstart hstop _).mpr (by omega)
    rw [assignPages_pageState hm hpages, if_pos hmem]
    exact hst
  have hbyte := Memory.byte_setBytes hwf (show start + data.length ≤ memorySize by rw [memorySize]; omega) hmapped x
  rw [List.getD_eq_getElem?_getD] at hbyte
  rw [hbyte]
  by_cases hrange : start ≤ x ∧ x < stop
  · rw [if_pos hrange]
    by_cases hin : x < start + data.length
    · rw [if_pos ⟨hrange.1, hin⟩]
    · rw [if_neg (by omega), List.getElem?_eq_none (by omega)]
      exact Memory.byte_of_absent hm (hfree x hrange.1 hrange.2)
  · rw [if_neg hrange, if_neg (by omega)]
    rfl

/-- What an accepted page call leaves, byte by byte. -/
theorem Builder.setPages_built {b : Builder} {st : PageState} (hst : st ≠ .absent) {start stop : Nat} {data : List Byte}
    (hm : b.mem.wf) (hargs : PageArgs start stop data) (hfree : b.mem.Free start stop) :
    ∃ b', b.setPages st start stop data = .ok b' ∧ b'.mem.wf ∧
      (∀ x, b'.mem.pageState (x / 4096) = if start ≤ x ∧ x < stop then st else b.mem.pageState (x / 4096)) ∧
      ∀ x, b'.mem.byte x = if start ≤ x ∧ x < stop then data[x - start]?.getD 0 else b.mem.byte x := by
  have hset := Builder.setPages_of_accepts st ((b.accepts_iff_free _ _ _).mpr ⟨hargs, hfree⟩)
  obtain ⟨-, hwf, hpages⟩ := Builder.setPages_ok hst hm hset
  obtain ⟨hstart, hstop, -⟩ := hargs
  exact ⟨_, hset, hwf, fun x => by simp only [hpages, page_mem_pagesBetween hstart hstop],
    Builder.setPages_byte hst hm hset⟩

/-! ### Finalize -/

theorem Builder.unassigned_iff_free (b : Builder) (lo hi : Nat) : b.unassigned lo hi = true ↔ b.mem.Free lo hi := by
  rw [Builder.unassigned_iff, Memory.free_iff]

theorem Builder.finalize_of_free {b : Builder} {lo hi : Nat} (h : b.mem.Free lo hi) :
    b.finalize lo hi = .ok { b.mem with heapStart := lo, heapEnd := hi, sbrkIndex := lo } :=
  if_pos ((b.unassigned_iff_free lo hi).mpr h)

/-- Settles O56, from what the two checks mean and what an accepted page call leaves. -/
theorem builderPageCalls : Obligations.BuilderPageCalls := by
  refine ⟨fun p => rfl, ?_⟩
  intro b start stop data hm free fits
  refine ⟨fun st hst => ⟨?_, fun h => ?_⟩, rfl, rfl, Builder.finalize_of_free, fun h => ?_⟩
  · rintro ⟨hargs, hfree⟩
    exact Builder.setPages_built (by obtain rfl | rfl := hst <;> decide) hm hargs hfree
  · exact if_neg fun haccepts => h ((b.accepts_iff_free _ _ _).mp haccepts)
  · exact if_neg fun hunassigned => h ((b.unassigned_iff_free _ _).mp hunassigned)

end Sys2Proof.Machine
end

section
/-! PROOFS. The pages of a range that may wrap (20_memory.md R71). -/

namespace Sys2Proof.Machine

/-- The page of an address reduced mod 2^32. -/
theorem page_of_wrapped (x : Nat) : x % 2 ^ 32 / 4096 = x / 4096 % 2 ^ 20 := by omega

theorem MemoryRange.pages_getElem? (r : MemoryRange) (hr : r.length ≠ 0) (j : Nat) :
    r.pages[j]? = if j ≤ (r.start.toNat % 4096 + r.length - 1) / 4096 then some ((r.start.toNat / 4096 + j) % 2 ^ 20)
      else none := by
  rw [MemoryRange.pages, if_neg hr, List.getElem?_map, config_pageSize, maxPages_eq]
  by_cases hj : j ≤ (r.start.toNat % 4096 + r.length - 1) / 4096
  · rw [if_pos hj, List.getElem?_range (by omega)]
    rfl
  · rw [if_neg hj, List.getElem?_eq_none (by rw [List.length_range]; omega)]
    rfl

/-- Page `k` of the range is that of its first byte for `k = 0`, of the byte where the page begins for the others. -/
theorem MemoryRange.mem_pages_iff (r : MemoryRange) (p : Nat) :
    p ∈ r.pages ↔ ∃ j < r.length, (r.start.toNat + j) % 2 ^ 32 / 4096 = p := by
  by_cases hr : r.length = 0
  · simp [MemoryRange.pages, hr]
  rw [List.mem_iff_getElem?]
  simp only [r.pages_getElem? hr, page_of_wrapped]
  constructor
  · rintro ⟨k, hk⟩
    split at hk
    next hlast =>
      obtain rfl := Option.some.inj hk
      by_cases hk0 : k = 0
      · exact ⟨0, by omega, by rw [hk0]; rfl⟩
      · refine ⟨4096 * k - r.start.toNat % 4096, by omega, ?_⟩
        rw [show (r.start.toNat + (4096 * k - r.start.toNat % 4096)) / 4096 = r.start.toNat / 4096 + k by omega]
    next => cases hk
  · rintro ⟨j, hj, rfl⟩
    refine ⟨(r.start.toNat % 4096 + j) / 4096, ?_⟩
    rw [if_pos (by omega), show r.start.toNat / 4096 + (r.start.toNat % 4096 + j) / 4096 = (r.start.toNat + j) / 4096
      by omega]

/-- Settles O57: the pages listed are consecutive mod 2^20, from the page of the first byte to that of the last. -/
theorem rangePagesWrap : Obligations.RangePagesWrap := by
  intro r hlen
  refine ⟨?_, r.mem_pages_iff, fun j p q hp hq => ?_⟩
  · rw [MemoryRange.stop, BitVec.toNat_add, BitVec.toNat_ofNat, Nat.add_mod_mod]
  · have hr : r.length ≠ 0 := fun h0 => by simp [MemoryRange.pages, h0] at hp
    rw [r.pages_getElem? hr] at hp hq
    split at hp <;> split at hq <;> simp only [Option.some.injEq, reduceCtorEq] at hp hq
    omega

end Sys2Proof.Machine
end

section
/-! PROOFS. The standard program initializer (70_reset_and_hazards.md R392 to R397): which blobs it accepts, and what it
makes of their fields. -/

namespace Sys2Proof.Machine

/-! ### The fields of a blob -/

/-- The little-endian value of the `n` bytes from offset `i` on, as the statements write it. -/
def fieldSum (bs : List Byte) (i n : Nat) : Nat := ∑ j ∈ Finset.range n, (bs[i + j]?.getD 0).toNat * 2 ^ (8 * j)

theorem slice_getElem? (bs : List Byte) (i : Nat) {n j : Nat} (hj : j < n) : (slice bs i n)[j]? = bs[i + j]? := by
  rw [slice, List.getElem?_take_of_lt hj, List.getElem?_drop]

theorem slice_length {bs : List Byte} {i n : Nat} (h : i + n ≤ bs.length) : (slice bs i n).length = n := by
  rw [slice, List.length_take, List.length_drop]
  omega

/-- Bytes past the end count as 0 in the sum, so a slice cut short has the same value. -/
theorem leValue_slice (bs : List Byte) (i n : Nat) : leValue (slice bs i n) = fieldSum bs i n := by
  have hle : (slice bs i n).length ≤ n := by rw [slice]; exact List.length_take_le ..
  rw [leValue_eq_sum, fieldSum]
  refine (Finset.sum_subset (Finset.range_mono hle) fun j _ hj => ?_).trans (Finset.sum_congr rfl fun j hj => ?_)
  · rw [List.getElem?_eq_none (by simpa using hj)]
    simp
  · rw [slice_getElem? bs i (Finset.mem_range.mp hj)]

theorem fieldSum_lt (bs : List Byte) (i n : Nat) : fieldSum bs i n < 256 ^ n := by
  rw [← leValue_slice]
  refine (leValue_lt _).trans_le (Nat.pow_le_pow_right (by decide) ?_)
  rw [slice]
  exact List.length_take_le ..

/-! ### Acceptance -/

/-- The length the fields of a blob require (R393). -/
def spiLength (blob : List Byte) : Nat :=
  15 + fieldSum blob 0 3 + fieldSum blob 3 3 + fieldSum blob (11 + fieldSum blob 0 3 + fieldSum blob 3 3) 4

/-- The preamble's fields at their offsets (R393). -/
def spiFields (blob : List Byte) : SpiBlob :=
  { readOnly := slice blob 11 (fieldSum blob 0 3)
    heap := slice blob (11 + fieldSum blob 0 3) (fieldSum blob 3 3)
    heapPages := fieldSum blob 6 2
    stack := fieldSum blob 8 3
    code := slice blob (15 + fieldSum blob 0 3 + fieldSum blob 3 3)
      (fieldSum blob (11 + fieldSum blob 0 3 + fieldSum blob 3 3) 4) }

theorem parseSpi_eq (blob : List Byte) :
    parseSpi blob = if blob.length = spiLength blob then some (spiFields blob) else none := by
  simp only [parseSpi, leValue_slice]
  refine if_congr ⟨fun h => h.2, fun h => ⟨?_, h⟩⟩ rfl rfl
  rw [h, spiLength]
  omega

/-- The program `spi` answers for the fields of a blob that fits. -/
def SpiBlob.program (b : SpiBlob) (args : List Byte) : SpiProgram :=
  { code := b.code
    readableSegments := present
      [⟨config.spiZone, config.spiZone + roundPage b.readOnly.length, b.readOnly⟩,
       ⟨argsStart, argsStart + roundPage args.length, args⟩]
    writeableSegments := present
      [⟨b.heapBase, b.heapTop, b.heap⟩, ⟨stackTop - roundPage b.stack, stackTop, []⟩]
    heapStart := b.heapBase
    sbrkIndex := b.heapTop
    heapEnd := stackTop - roundPage b.stack
    registers := spiRegisters args.length }

theorem spi_eq (blob args : List Byte) :
    spi blob args =
      if blob.length = spiLength blob ∧ (spiFields blob).fits args = true then .ok ((spiFields blob).program args)
      else .error .invalidLength := by
  rw [spi, parseSpi_eq]
  by_cases hlen : blob.length = spiLength blob
  · simp only [hlen, if_true, true_and]
    rfl
  · simp only [hlen, false_and, if_false]

/-- What the initializer accepted and answers. -/
theorem spi_ok {blob args : List Byte} {prog : SpiProgram} (h : spi blob args = .ok prog) :
    ∃ b, parseSpi blob = some b ∧ b.fits args = true ∧ prog = b.program args := by
  rw [spi_eq] at h
  split at h
  next hacc => exact ⟨spiFields blob, by rw [parseSpi_eq, if_pos hacc.1], hacc.2, (Except.ok.inj h).symm⟩
  next => cases h

theorem SpiBlob.fits_iff (b : SpiBlob) (args : List Byte) :
    b.fits args = true ↔ b.readOnly.length ≤ 2 ^ 24 ∧ b.heap.length ≤ 2 ^ 24 ∧ args.length ≤ 2 ^ 24 ∧
      5 * 65536 + roundZone b.readOnly.length + roundZone (b.heap.length + b.heapPages * 4096) + roundZone b.stack +
        2 ^ 24 ≤ 2 ^ 32 := by
  simp only [SpiBlob.fits, Bool.and_eq_true, decide_eq_true_iff, and_assoc]
  rfl

theorem roundZone_eq (n : Nat) : roundZone n = 65536 * ((n + 65535) / 65536) := by
  rw [roundZone, config_spiZone, show n + 65536 - 1 = n + 65535 by omega]

theorem roundPage_eq (n : Nat) : roundPage n = 4096 * ((n + 4095) / 4096) := by
  rw [roundPage, config_spiPage, show n + 4096 - 1 = n + 4095 by omega]

/-- A blob of the required length has its data of the lengths its fields say. -/
theorem spiFields_lengths {blob : List Byte} (h : blob.length = spiLength blob) :
    (spiFields blob).readOnly.length = fieldSum blob 0 3 ∧ (spiFields blob).heap.length = fieldSum blob 3 3 := by
  rw [spiLength] at h
  exact ⟨slice_length (by omega), slice_length (by omega)⟩

/-- The container bytes are the rest of the blob. -/
theorem spiFields_code {blob : List Byte} (h : blob.length = spiLength blob) :
    (spiFields blob).code = blob.drop (15 + fieldSum blob 0 3 + fieldSum blob 3 3) := by
  rw [spiLength] at h
  exact List.take_of_length_le (by rw [List.length_drop]; omega)

/-- Settles O60: the lengths of the read-only and heap data are 3-byte fields, so of the limits of R393 only those on the
arguments and on the whole layout can fail. -/
theorem spiBlobAcceptance : Obligations.SpiBlobAcceptance := by
  intro blob args field o w z stack c Z accepted
  have hiff : accepted ↔ blob.length = spiLength blob ∧ (spiFields blob).fits args = true := by
    refine and_congr_right fun hlen => ?_
    obtain ⟨hro, hheap⟩ := spiFields_lengths hlen
    have ho := fieldSum_lt blob 0 3
    have hw := fieldSum_lt blob 3 3
    rw [SpiBlob.fits_iff, hro, hheap, roundZone_eq, roundZone_eq, roundZone_eq]
    exact ⟨fun ⟨hargs, hlayout⟩ => ⟨by omega, by omega, hargs, hlayout⟩, fun ⟨_, _, hargs, hlayout⟩ => ⟨hargs, hlayout⟩⟩
  refine ⟨fun hacc => ?_, fun hacc => ?_⟩
  · obtain ⟨hlen, hfits⟩ := hiff.mp hacc
    obtain ⟨hro, hheap⟩ := spiFields_lengths hlen
    have hcode := spiFields_code hlen
    refine ⟨(spiFields blob).program args, spiFields blob, ?_, ?_, hcode, ?_, rfl, hro, fun j hj => ?_, hheap,
      fun j hj => ?_, rfl, rfl⟩
    · rw [spi_eq, if_pos ⟨hlen, hfits⟩]
    · rw [parseSpi_eq, if_pos hlen]
    · rw [SpiBlob.program, hcode, List.length_drop, hlen, spiLength]
      exact Nat.add_sub_cancel_left ..
    · exact slice_getElem? blob 11 hj
    · exact slice_getElem? blob (11 + o) hj
  · rw [spi_eq, if_neg (hiff.not.mp hacc)]

/-- Outside the four seeded registers the initial file is 0. -/
theorem spiRegisters_unseeded (n : Nat) (r : Reg) (h0 : r ≠ 0) (h1 : r ≠ 1) (h7 : r ≠ 7) (h8 : r ≠ 8) :
    (spiRegisters n)[r] = 0#64 := by
  match r with
  | 0 => exact absurd rfl h0
  | 1 => exact absurd rfl h1
  | 7 => exact absurd rfl h7
  | 8 => exact absurd rfl h8
  | 2 | 3 | 4 | 5 | 6 | 9 | 10 | 11 | 12 => rfl

end Sys2Proof.Machine

namespace Sys2Proof
open Machine

/-- Settles O59: the seeded registers, for at most 2^24 argument bytes. -/
theorem spiRegisters : Obligations.SpiRegisters := by
  refine ⟨rfl, fun blob args prog h => ?_⟩
  obtain ⟨b, -, hfits, rfl⟩ := spi_ok h
  obtain ⟨-, -, hargs, -⟩ := (b.fits_iff args).mp hfits
  refine ⟨rfl, rfl, rfl, ?_, spiRegisters_unseeded args.length⟩
  show (ofCount args.length).toNat = args.length
  rw [ofCount, BitVec.toNat_ofNat, Nat.mod_eq_of_lt (by omega)]

end Sys2Proof
end

section
/-! PROOFS. The memory of the standard program initializer (70_reset_and_hazards.md R395, R396): its four segments are
placed one after another on pages still Absent. -/

namespace Sys2Proof.Machine

/-! ### Placing one segment -/

/-- A segment that a page call can place, or that does not exist. -/
def Segment.Placeable (g : Segment) : Prop :=
  g.start % 4096 = 0 ∧ g.stop % 4096 = 0 ∧ g.start ≤ g.stop ∧ g.stop ≤ 2 ^ 32 ∧ g.data.length ≤ g.stop - g.start

/-- The pages and bytes of `m'` are those of `m` with the segment placed over them. -/
def Segment.Placed (g : Segment) (st : PageState) (m m' : Memory) : Prop :=
  (∀ x, m'.pageState (x / 4096) = if g.start ≤ x ∧ x < g.stop then st else m.pageState (x / 4096)) ∧
    ∀ x, m'.byte x = if g.start ≤ x ∧ x < g.stop then g.data[x - g.start]?.getD 0 else m.byte x

/-- Building a list of segments places the first one, if it exists, and builds the rest. -/
theorem buildSegments_present_cons {st : PageState} (hst : st ≠ .absent) {g : Segment} (gs : List Segment) {b : Builder}
    (hm : b.mem.wf) (hg : g.Placeable) (hfree : b.mem.Free g.start g.stop) :
    ∃ b', buildSegments (Builder.setPages st) (present (g :: gs)) b =
        buildSegments (Builder.setPages st) (present gs) b' ∧
      b'.mem.wf ∧ g.Placed st b.mem b'.mem := by
  obtain ⟨hstart, hstop, hle, htop, hdata⟩ := hg
  by_cases hlt : g.start < g.stop
  · obtain ⟨b', hset, hwf, hplaced⟩ :=
      Builder.setPages_built hst hm ⟨hstart, hstop, hlt, htop, hdata⟩ hfree
    refine ⟨b', ?_, hwf, hplaced⟩
    simp [present, hlt, buildSegments, hset]
  · refine ⟨b, by simp [present, hlt], hm, fun x => ?_, fun x => ?_⟩ <;> rw [if_neg (by omega)]

/-- A segment placed elsewhere leaves a range free. -/
theorem Segment.Placed.free {g : Segment} {st : PageState} {m m' : Memory} (h : g.Placed st m m') {lo hi : Nat}
    (hfree : m.Free lo hi) (hdisjoint : hi ≤ g.start ∨ g.stop ≤ lo) : m'.Free lo hi := by
  intro x hlo hhi
  rw [h.1, if_neg (by omega)]
  exact hfree x hlo hhi

theorem emptyMemory_free (lo hi : Nat) : ({} : Memory).Free lo hi := fun _ _ _ => rfl

/-! ### Four segments

The segments of a program in general: `ro` and `ar` Readable, `he` and `sk` Writable, in the order `ro`, `he`, `sk`, `ar`
of their addresses. -/

/-- Where the four segments stand: each on pages of its own, and before the next. -/
structure Segment.Apart (ro he sk ar : Segment) : Prop where
  readOnly : ro.Placeable
  heap : he.Placeable
  stack : sk.Placeable
  arguments : ar.Placeable
  readOnly_heap : ro.stop ≤ he.start
  heap_le : he.start ≤ he.stop
  heap_stack : he.stop ≤ sk.start
  stack_le : sk.start ≤ sk.stop
  stack_args : sk.stop ≤ ar.start

/-! The heap values take no part in pages and bytes. -/

section HeapValues
variable (m : Memory) (heapStart heapEnd sbrkIndex x : Nat)

theorem Memory.wf.setHeap {m : Memory} (h : m.wf) :
    ({ m with heapStart := heapStart, heapEnd := heapEnd, sbrkIndex := sbrkIndex } : Memory).wf := h

theorem Memory.pageState_setHeap :
    ({ m with heapStart := heapStart, heapEnd := heapEnd, sbrkIndex := sbrkIndex } : Memory).pageState x =
      m.pageState x := rfl

theorem Memory.byte_setHeap :
    ({ m with heapStart := heapStart, heapEnd := heapEnd, sbrkIndex := sbrkIndex } : Memory).byte x = m.byte x := rfl

end HeapValues

theorem some_getD_of_lt {bs : List Byte} {j : Nat} (hj : j < bs.length) : some (bs[j]?.getD 0) = bs[j]? := by
  rw [List.getElem?_eq_getElem hj, Option.getD_some]

theorem getD_of_le {bs : List Byte} {k : Nat} (h : bs.length ≤ k) : bs[k]?.getD 0 = 0 := by
  rw [List.getElem?_eq_none h, Option.getD_none]

section FourSegments
variable {ro he sk ar : Segment} {m : Memory}

/-- The pages and bytes of `m` are the four segments placed over an empty memory. -/
def Segment.Built (ro he sk ar : Segment) (m : Memory) : Prop :=
  ∃ m₁ m₂ m₃, ro.Placed .readable {} m₁ ∧ ar.Placed .readable m₁ m₂ ∧ he.Placed .writable m₂ m₃ ∧
    sk.Placed .writable m₃ m

/-- The four page calls are accepted one after another, and `finalize` finds the heap range unassigned. -/
theorem Segment.Apart.memory (h : Segment.Apart ro he sk ar) (code : List Byte) (heapStart : Nat)
    (registers : Vector Word 13) :
    ∃ m : Memory, m.wf ∧ Segment.Built ro he sk ar m ∧
      SpiProgram.memory
        { code := code, readableSegments := present [ro, ar], writeableSegments := present [he, sk],
          heapStart := heapStart, sbrkIndex := he.stop, heapEnd := sk.start, registers := registers } =
        .ok { m with heapStart := heapStart, heapEnd := sk.start, sbrkIndex := he.stop } := by
  obtain ⟨hreadOnly, hheap, hstack, harguments, hro_heap, hheap_le, hheap_stack, hstack_le, hstack_args⟩ := h
  obtain ⟨b₁, hbuild₁, hwf₁, hplaced₁⟩ := buildSegments_present_cons (st := .readable) (by decide) [ar] (b := {})
    emptyMemory_wf hreadOnly (emptyMemory_free _ _)
  have hfree₁ := fun lo hi (hlo : ro.stop ≤ lo) => hplaced₁.free (emptyMemory_free lo hi) (.inr hlo)
  obtain ⟨b₂, hbuild₂, hwf₂, hplaced₂⟩ := buildSegments_present_cons (st := .readable) (by decide) [] hwf₁ harguments
    (hfree₁ _ _ (by omega))
  have hfree₂ := fun lo hi (hlo : ro.stop ≤ lo) (hhi : hi ≤ ar.start) => hplaced₂.free (hfree₁ lo hi hlo) (.inl hhi)
  obtain ⟨b₃, hbuild₃, hwf₃, hplaced₃⟩ := buildSegments_present_cons (st := .writable) (by decide) [sk] hwf₂ hheap
    (hfree₂ _ _ hro_heap (by omega))
  have hfree₃ := fun lo hi (hlo : he.stop ≤ lo) (hhi : hi ≤ ar.start) =>
    hplaced₃.free (hfree₂ lo hi (by omega) hhi) (.inr hlo)
  obtain ⟨b₄, hbuild₄, hwf₄, hplaced₄⟩ := buildSegments_present_cons (st := .writable) (by decide) [] hwf₃ hstack
    (hfree₃ _ _ hheap_stack hstack_args)
  have hfree₄ : b₄.mem.Free he.stop sk.start :=
    hplaced₄.free (hfree₃ _ _ (Nat.le_refl _) (by omega)) (.inl (Nat.le_refl _))
  have hreadable : buildSegments Builder.setReadablePages (present [ro, ar]) {} = .ok b₂ := hbuild₁.trans hbuild₂
  have hwriteable : buildSegments Builder.setWriteablePages (present [he, sk]) b₂ = .ok b₄ := hbuild₃.trans hbuild₄
  refine ⟨b₄.mem, hwf₄, ⟨_, _, _, hplaced₁, hplaced₂, hplaced₃, hplaced₄⟩, ?_⟩
  simp only [SpiProgram.memory, hreadable, hwriteable, Builder.finalize_of_free hfree₄]

/-- The segments placed later do not touch the pages of those before, so each page has the state of its own segment. -/
theorem Segment.Built.pageState (h : Segment.Built ro he sk ar m) (hapart : Segment.Apart ro he sk ar) (x : Nat) :
    m.pageState (x / 4096) =
      if (ro.start ≤ x ∧ x < ro.stop) ∨ (ar.start ≤ x ∧ x < ar.stop) then .readable
      else if (he.start ≤ x ∧ x < he.stop) ∨ (sk.start ≤ x ∧ x < sk.stop) then .writable
      else .absent := by
  obtain ⟨m₁, m₂, m₃, hreadOnly, harguments, hheap, hstack⟩ := h
  obtain ⟨-, -, -, -, hro_heap, hheap_le, hheap_stack, hstack_le, hstack_args⟩ := hapart
  have hempty : ({} : Memory).pageState (x / 4096) = .absent := rfl
  rw [hstack.1, hheap.1, harguments.1, hreadOnly.1, hempty, ← ite_or, ← ite_or]
  by_cases hwritable : (he.start ≤ x ∧ x < he.stop) ∨ (sk.start ≤ x ∧ x < sk.stop)
  · rw [if_pos hwritable.symm, if_neg (by omega), if_pos hwritable]
  · rw [if_neg fun h => hwritable h.symm, if_neg hwritable]
    exact if_congr or_comm rfl rfl

/-- Each byte of a segment is that of its data, then 0; every other byte is 0. -/
theorem Segment.Built.byte (h : Segment.Built ro he sk ar m) (x : Nat) :
    m.byte x =
      if sk.start ≤ x ∧ x < sk.stop then sk.data[x - sk.start]?.getD 0
      else if he.start ≤ x ∧ x < he.stop then he.data[x - he.start]?.getD 0
      else if ar.start ≤ x ∧ x < ar.stop then ar.data[x - ar.start]?.getD 0
      else if ro.start ≤ x ∧ x < ro.stop then ro.data[x - ro.start]?.getD 0
      else 0 := by
  obtain ⟨m₁, m₂, m₃, hreadOnly, harguments, hheap, hstack⟩ := h
  rw [hstack.2, hheap.2, harguments.2, hreadOnly.2]
  rfl

/-- Each segment holds its data. -/
theorem Segment.Built.data (h : Segment.Built ro he sk ar m) (hapart : Segment.Apart ro he sk ar) :
    (∀ j < ro.data.length, some (m.byte (ro.start + j)) = ro.data[j]?) ∧
      (∀ j < he.data.length, some (m.byte (he.start + j)) = he.data[j]?) ∧
      ∀ j < ar.data.length, some (m.byte (ar.start + j)) = ar.data[j]? := by
  obtain ⟨⟨-, -, -, -, hro⟩, ⟨-, -, -, -, hhe⟩, -, ⟨-, -, -, -, har⟩, hro_heap, hheap_le, hheap_stack, hstack_le,
    hstack_args⟩ := hapart
  refine ⟨fun j hj => ?_, fun j hj => ?_, fun j hj => ?_⟩
  · rw [h.byte, if_neg (by omega), if_neg (by omega), if_neg (by omega), if_pos (by omega), Nat.add_sub_cancel_left,
      some_getD_of_lt hj]
  · rw [h.byte, if_neg (by omega), if_pos (by omega), Nat.add_sub_cancel_left, some_getD_of_lt hj]
  · rw [h.byte, if_neg (by omega), if_neg (by omega), if_pos (by omega), Nat.add_sub_cancel_left, some_getD_of_lt hj]

/-- A byte that is no segment's data is 0. -/
theorem Segment.Built.byte_eq_zero (h : Segment.Built ro he sk ar m) {x : Nat}
    (hro : ¬(ro.start ≤ x ∧ x < ro.start + ro.data.length)) (hhe : ¬(he.start ≤ x ∧ x < he.start + he.data.length))
    (hsk : sk.data = []) (har : ¬(ar.start ≤ x ∧ x < ar.start + ar.data.length)) : m.byte x = 0 := by
  rw [h.byte, hsk]
  split_ifs
  · rfl
  · exact getD_of_le (by omega)
  · exact getD_of_le (by omega)
  · exact getD_of_le (by omega)
  · rfl

end FourSegments

/-! ### The layout of a blob that fits -/

def SpiBlob.readOnlySegment (b : SpiBlob) : Segment :=
  ⟨config.spiZone, config.spiZone + roundPage b.readOnly.length, b.readOnly⟩

def argsSegment (args : List Byte) : Segment := ⟨argsStart, argsStart + roundPage args.length, args⟩

def SpiBlob.heapSegment (b : SpiBlob) : Segment := ⟨b.heapBase, b.heapTop, b.heap⟩

def SpiBlob.stackSegment (b : SpiBlob) : Segment := ⟨stackTop - roundPage b.stack, stackTop, []⟩

theorem SpiBlob.program_segments (b : SpiBlob) (args : List Byte) :
    b.program args =
      { code := b.code, readableSegments := present [b.readOnlySegment, argsSegment args],
        writeableSegments := present [b.heapSegment, b.stackSegment], heapStart := b.heapBase,
        sbrkIndex := b.heapSegment.stop, heapEnd := b.stackSegment.start, registers := spiRegisters args.length } := rfl

theorem roundPage_mod (n : Nat) : roundPage n % 4096 = 0 := by rw [roundPage_eq]; omega

theorem roundZone_mod (n : Nat) : roundZone n % 4096 = 0 := by rw [roundZone_eq]; omega

theorem le_roundPage (n : Nat) : n ≤ roundPage n := by rw [roundPage_eq]; omega

/-- Rounding the data to pages and adding pages takes no more than rounding the sum to zones. -/
theorem roundPage_add_le_roundZone (n pages : Nat) : roundPage n + pages * 4096 ≤ roundZone (n + pages * 4096) := by
  rw [roundPage_eq, roundZone_eq]
  omega

/-- Rounding to pages adds nothing to a bound that is a whole number of pages. -/
theorem roundPage_le {n : Nat} (h : n ≤ 2 ^ 24) : roundPage n ≤ 2 ^ 24 := by rw [roundPage_eq]; omega

/-- The layout bound of R393 leaves each segment its place. -/
theorem SpiBlob.segments_apart {b : SpiBlob} {args : List Byte} (h : b.fits args = true) :
    Segment.Apart b.readOnlySegment b.heapSegment b.stackSegment (argsSegment args) := by
  obtain ⟨-, -, hargs, hlayout⟩ := (b.fits_iff args).mp h
  have hbase : b.heapBase = 2 * 65536 + roundZone b.readOnly.length := rfl
  have htop : b.heapTop = b.heapBase + roundPage b.heap.length + b.heapPages * 4096 := rfl
  have hstack : stackTop = 0xFEFE0000 := rfl
  have hstart : argsStart = 0xFEFF0000 := rfl
  have hreadOnlyZone : roundPage b.readOnly.length ≤ roundZone b.readOnly.length := roundPage_add_le_roundZone _ 0
  have hheapZone := roundPage_add_le_roundZone b.heap.length b.heapPages
  have hstackZone : roundPage b.stack ≤ roundZone b.stack := roundPage_add_le_roundZone _ 0
  have hargsPages := roundPage_le hargs
  have hbaseMod := roundZone_mod b.readOnly.length
  constructor
  case readOnly =>
    have hmod := roundPage_mod b.readOnly.length
    have hdata := le_roundPage b.readOnly.length
    simp only [Segment.Placeable, SpiBlob.readOnlySegment, Nat.reduceMod, true_and]
    omega
  case heap =>
    have hmod := roundPage_mod b.heap.length
    have hdata := le_roundPage b.heap.length
    simp only [Segment.Placeable, SpiBlob.heapSegment]
    omega
  case stack =>
    have hmod := roundPage_mod b.stack
    simp only [Segment.Placeable, SpiBlob.stackSegment, List.length_nil]
    omega
  case arguments =>
    have hmod := roundPage_mod args.length
    have hdata := le_roundPage args.length
    simp only [Segment.Placeable, argsSegment]
    omega
  all_goals
    simp only [SpiBlob.readOnlySegment, SpiBlob.heapSegment, SpiBlob.stackSegment, argsSegment]
    omega

/-- The ends of the four segments, as the statement of the layout writes them. -/
theorem SpiBlob.segment_ends (b : SpiBlob) (args : List Byte) :
    (b.readOnlySegment.start = 0x10000 ∧ b.readOnlySegment.stop = 0x10000 + roundPage b.readOnly.length) ∧
      (b.heapSegment.start = b.heapBase ∧ b.heapSegment.stop = b.heapTop) ∧
      (b.stackSegment.start = 0xFEFE0000 - roundPage b.stack ∧ b.stackSegment.stop = 0xFEFE0000) ∧
      (argsSegment args).start = 0xFEFF0000 ∧ (argsSegment args).stop = 0xFEFF0000 + roundPage args.length :=
  ⟨⟨rfl, rfl⟩, ⟨rfl, rfl⟩, ⟨rfl, rfl⟩, rfl, rfl⟩

/-- Settles O58: the segments of a blob that fits stand apart, so the memory built holds each of them. -/
theorem spiMemoryLayout : Obligations.SpiMemoryLayout := by
  intro blob args prog h
  obtain ⟨b, hparse, hfits, rfl⟩ := spi_ok h
  have hapart := SpiBlob.segments_apart hfits
  obtain ⟨m, hwf, hbuilt, hmemory⟩ := hapart.memory b.code b.heapBase (spiRegisters args.length)
  rw [← b.program_segments] at hmemory
  obtain ⟨hreadOnly, hheap, harguments⟩ := hbuilt.data hapart
  obtain ⟨⟨hros, hroe⟩, ⟨hhes, hhee⟩, ⟨hsks, hske⟩, hars, hare⟩ := b.segment_ends args
  refine ⟨b, _, hparse, hmemory, hwf.setHeap .., ?_⟩
  intro P H heapTop inside
  have hP : ∀ n, P n = roundPage n := fun n => (roundPage_eq n).symm
  have hH : H = b.heapBase := by rw [SpiBlob.heapBase, roundZone_eq, config_spiZone]
  have htop : heapTop = b.heapTop := by rw [SpiBlob.heapTop, ← hH, roundPage_eq, config_spiPage]
  have hbase : 131072 ≤ b.heapBase := Nat.le_add_right _ _
  have hheap_le := hapart.heap_le
  have hheap_stack := hapart.heap_stack
  rw [hros] at hreadOnly
  rw [hhes] at hheap hheap_le
  rw [hars] at harguments
  rw [hhee] at hheap_le hheap_stack
  rw [hsks] at hheap_stack
  refine ⟨fun x => ?_, fun j hj => ?_, fun j hj => ?_, fun j hj => ?_, fun x hro hhe har => ?_, hH.symm,
    hhee.trans htop.symm, ?_⟩
  · rw [Memory.pageState_setHeap, hbuilt.pageState hapart, hros, hroe, hhes, hhee, hsks, hske, hars, hare]
    simp only [inside, hP, hH, htop]
    refine if_congr Iff.rfl rfl (if_congr (or_congr ?_ ?_) rfl rfl) <;> omega
  · rw [Memory.byte_setHeap]
    exact hreadOnly j hj
  · rw [Memory.byte_setHeap, hH]
    exact hheap j hj
  · rw [Memory.byte_setHeap]
    exact harguments j hj
  · rw [hH] at hhe
    rw [Memory.byte_setHeap]
    refine hbuilt.byte_eq_zero ?_ ?_ rfl ?_
    · rwa [hros]
    · rwa [hhes]
    · rwa [hars]
  · rw [hP]
    exact hsks

end Sys2Proof.Machine
end
